-- ==== Sys2Proof/Word.lean ====
section
/-! DEFINITION. The word types of the AX4 and their plainest arithmetic. -/

namespace Sys2Proof

/-- A 32-bit register, position, tag, time or report word. -/
abbrev Word := BitVec 32

/-- A 64-bit host memory address. -/
abbrev Addr := BitVec 64

/-- A 32-byte memory object, little-endian: byte i stands at bits 8i+7..8i (Chapter 12). -/
abbrev Block32 := BitVec 256

end Sys2Proof
end

