-- ==== Sys2Proof/Syntax.lean ====
section
/-! DEFINITION. The commands of the AX4: one constructor per row of the opcode table, and the types of their operands. -/

namespace Sys2Proof

/-- Axes 0 to 3. -/
abbrev Axis := Fin 4

/-- Sync groups 0 to 7. -/
abbrev GroupIx := Fin 8

/-- A set of axes: bit n for axis n (Table 12-6, DEFINE_GROUP). -/
abbrev AxisSet := BitVec 4

/-- The six event sources of an axis (R94). -/
inductive Source where
  | index
  | home
  | trg (m : Fin 4)
deriving DecidableEq, Repr

/-- The line an axis takes its INDEX or HOME events from: its own line, or a trigger line (R86). -/
inductive LineSource where
  | own
  | trg (m : Fin 4)
deriving DecidableEq, Repr

/-- The 28 input lines (R82). -/
inductive Line where
  | encA (a : Axis)
  | encB (a : Axis)
  | encI (a : Axis)
  | limP (a : Axis)
  | limN (a : Axis)
  | home (a : Axis)
  | trg (m : Fin 4)
deriving DecidableEq, Repr

/-- The 12 event lines (R82). -/
inductive EventLine where
  | encI (a : Axis)
  | home (a : Axis)
  | trg (m : Fin 4)
deriving DecidableEq, Repr

/-- The two limit lines of an axis (R88). -/
inductive Side where
  | pos
  | neg
deriving DecidableEq, Repr

/-- The two quadrature lines of an axis (R99). -/
inductive QuadLine where
  | a
  | b
deriving DecidableEq, Repr

/-- The two filter classes (Table 5-1). -/
inductive FilterClass where
  | fast
  | slow
deriving DecidableEq, Repr

/-- The configuration of an axis, as a CONFIGURE_AXIS record carries it (Table 12-6). -/
structure AxisConfig where
  updatePeriod  : Nat
  maxRate       : Nat
  creepRate     : Nat
  jumpLimit     : Nat
  stopDecel     : Nat
  countsPerStep : Nat
  followWindow  : Nat
  pulseWidth    : Nat
  dirSetup      : Nat
  /-- count sense: INVERTED when set -/
  inverted      : Bool
  limitsOn      : Bool
  /-- limit active level: HIGH when set -/
  limitHigh     : Bool
  indexSrc      : LineSource
  homeSrc       : LineSource
deriving DecidableEq, Repr

/-- The settings of the Input Qualifier (R82). Polarity bits: ENCI0 to 3, HOME0 to 3, TRG0 to 3 from bit 0, set for FALLING. -/
structure InputsConfig where
  fastDepth    : Nat
  slowDepth    : Nat
  slowInterval : Nat
  polarity     : BitVec 12
deriving DecidableEq, Repr

/-- The eight host registers (Table 11-1). -/
inductive HostReg where
  | ctl
  | sts
  | suaLo
  | suaHi
  | tailpost
  | chead
  | icause
  | imod
deriving DecidableEq, Repr

/-- How a 32-byte memory read ends: with its data, or with a bus error. -/
inductive ReadEnd where
  | data (d : Block32)
  | busError
deriving DecidableEq, Repr

/-- The commands, one per row of the opcode table. -/
inductive Instr where
  /-- HARDWARE_RESET; `powerOn` is set for a power-on reset (with or without the pin), clear for the RESET pin alone. -/
  | hardwareReset (powerOn : Bool)
  | softReset
  | go
  | halt
  | tailpost (ring : BitVec 3) (tail : BitVec 16)
  | chead (head : BitVec 16)
  | icauseWrite (cpl fail setup : Bool)
  | imodWrite (cplEn failEn setupEn : Bool) (threshold : BitVec 8) (holdoff : BitVec 16)
  | stsWrite (postErr headErr : Bool)
  | registerWrite (reg : HostReg) (value : Word)
  | portGrant
  | setupReadComplete (result : ReadEnd)
  | fetchReadComplete (result : ReadEnd)
  | mirrorWriteComplete (busError : Bool)
  | completionWriteComplete (busError : Bool)
  | holdoffExpiry
  | quiesceEnd
  | updatePeriodExpiry (a : Axis)
  | stepPulseIssue (a : Axis)
  | stepPulseEnd (a : Axis)
  /-- LIMIT_EDGE: a qualified edge to `high` on one of the limit lines of axis `a`. -/
  | limitEdge (a : Axis) (side : Side) (high : Bool)
  /-- ENCODER_TRANSITION: a qualified edge to `high` on one of the quadrature lines of axis `a`. -/
  | encoderTransition (a : Axis) (line : QuadLine) (high : Bool)
  /-- QUADRATURE_ERROR: qualified edges on both quadrature lines of axis `a` on one sample. -/
  | quadratureError (a : Axis)
  /-- EVENT: a qualified edge of the configured polarity on an event line. -/
  | event (line : EventLine)
  | configureAxis (a : Axis) (tag : Word) (cfg : AxisConfig)
  | configureInputs (tag : Word) (cfg : InputsConfig)
  | enableAxis (a : Axis) (tag : Word)
  | disableAxis (a : Axis) (tag : Word)
  | stopAxis (a : Axis) (tag : Word) (decel : Option Nat)
  | abortAxis (a : Axis) (tag : Word)
  | clearFault (a : Axis) (tag : Word) (resume realign : Bool)
  | defineGroup (g : GroupIx) (tag : Word) (members : AxisSet) (reusable : Bool) (timeout : Option Nat)
  | clearGroup (g : GroupIx) (tag : Word)
  | setCaptureArm (a : Axis) (tag : Word) (src : Source) (count : Option Nat)
  | setCaptureDisarm (a : Axis) (tag : Word)
  | readStatus (a : Axis) (tag : Word)
  | nop (tag : Word)
  /-- INVALID_CONTROL_RECORD: a record that failed its check, with its kind code and header byte 2 as read. -/
  | invalidControlRecord (kind : BitVec 5) (index : BitVec 8) (tag : Word)
  /-- QUALIFIER_SAMPLE: one sample of the lines of one class; bit i of `levels` is the raw level of line i. -/
  | qualifierSample (cls : FilterClass) (levels : BitVec 28)
deriving DecidableEq, Repr

end Sys2Proof
end

