-- ==== Sys2Proof/Config.lean ====
section
/-! DEFINITION. What the spec leaves open. Each is a constant with no body: a free value that no proof can see.
The model applies it to a counter that State holds and advances (`State.freeCount`). -/

namespace Sys2Proof.Config

/-- The order in which events of one instant are taken where the spec allows either order (R41, R77, R85, R118, R137):
the next event taken is the one at this index, modulo how many are left. Log entry 3. -/
opaque freeOrder : Nat → Nat

/-- Whether a control record held by the interpreter takes a freed general entry ahead of the other reservers of that
instant (R154). Log entry 7. -/
opaque freeClaim : Nat → Bool

/-- Whether what a qualified edge brings about at its instant, axes going to OFF or a held record's acceptance, is taken
before the other edges of the same sample (R119, R120, R154). Log entry 3. -/
opaque freeFollow : Nat → Bool

end Sys2Proof.Config
end

