-- ==== Sys2Proof/Machine/State.lean ====
section
/-! DEFINITION. The state of the AX4 as plain data, its value right after a power-on reset, and the reasons a step can stop. -/

namespace Sys2Proof.Machine
open Sys2Proof

/-! ### Records and reports -/

/-- Forward or reverse (section 12.2). -/
inductive Dir where
  | forward
  | reverse
deriving DecidableEq, Repr

/-- The exit of a MOVE (R10). -/
inductive Exit where
  | rest
  | continue
deriving DecidableEq, Repr

/-- The policy of a WAIT (R12). -/
inductive Policy where
  | latched
  | fresh
deriving DecidableEq, Repr

/-- The fields of a MOVE (Tables 1-3, 12-5). -/
structure Move where
  dir       : Dir
  steps     : Nat
  startRate : Option Nat
  delta     : Int
  exit      : Exit
  sync      : Option GroupIx
deriving DecidableEq, Repr

/-- The fields of a WAIT (Tables 1-3, 12-5). -/
structure Wait where
  src     : Source
  policy  : Policy
  timeout : Option Nat
  ref     : Option Word
deriving DecidableEq, Repr

/-- An axis record as staged: one of the five kinds marked valid, or a record marked invalid with its kind code as read
(R4, R128, R174). -/
inductive AxisBody where
  | move (m : Move)
  | dwell (duration : Nat) (sync : Option GroupIx)
  | wait (w : Wait)
  | setpos (cmd enc : Option Word)
  | mark
  | invalid (kind : BitVec 5)
deriving DecidableEq, Repr

/-- An axis record with its host tag and report flag. -/
structure AxisRecord where
  tag    : Word
  report : Bool
  body   : AxisBody
deriving DecidableEq, Repr

/-- The tag and kind code by which a report names a record. -/
structure RecId where
  tag  : Word
  kind : BitVec 5
deriving DecidableEq, Repr

/-- What a control record asks for (Table 12-6), or a record marked invalid with its kind code and header byte 2 as read
(R156, R174). -/
inductive CtlBody where
  | configureAxis (a : Axis) (cfg : AxisConfig)
  | configureInputs (cfg : InputsConfig)
  | enableAxis (a : Axis)
  | disableAxis (a : Axis)
  | stopAxis (a : Axis) (decel : Option Nat)
  | abortAxis (a : Axis)
  | clearFault (a : Axis) (resume realign : Bool)
  | defineGroup (g : GroupIx) (members : AxisSet) (reusable : Bool) (timeout : Option Nat)
  | clearGroup (g : GroupIx)
  | setCaptureArm (a : Axis) (src : Source) (count : Option Nat)
  | setCaptureDisarm (a : Axis)
  | readStatus (a : Axis)
  | nop
  | invalid (kind : BitVec 5) (index : BitVec 8)
deriving DecidableEq, Repr

/-- A control record with its host tag. -/
structure CtlRecord where
  tag  : Word
  body : CtlBody
deriving DecidableEq, Repr

/-- Report sources (Table 12-7). -/
inductive ReportSource where
  | control
  | axis (a : Axis)
deriving DecidableEq, Repr

/-- Report kinds (Table 12-7). -/
inductive ReportKind where
  | segment
  | fault
  | control
  | capture
  | status
deriving DecidableEq, Repr

/-- Statuses (Table 12-8). -/
inductive Status where
  | ok
  | timeout
  | stopped
  | aborted
  | halted
  | invalid
  | invalidConfig
  | notAllowed
  | busy
  | reportPending
deriving DecidableEq, Repr

/-- Fault causes (Tables 3-2, 12-8). -/
inductive FaultCause where
  | limitPos
  | limitNeg
  | following
  | encoder
  | underrun
  | sequence
  | rateJump
  | recordInvalid
  | syncBroken
  | busError
deriving DecidableEq, Repr

/-- The contents of a completion report (R138, Table 12-7). -/
structure Report where
  seq      : Word
  source   : ReportSource
  kind     : ReportKind
  status   : Status
  cause    : Option FaultCause
  echo     : BitVec 5
  /-- flushed count; staging count in a STATUS report -/
  flushed  : Nat
  ringHead : Nat
  tag      : Word
  time     : Word
  cmd      : Word
  enc      : Word
  wordA    : Word
  wordB    : Word
deriving DecidableEq, Repr

/-! ### Device State Control, registers and the moderator -/

/-- Device states (Table 11-2). -/
inductive DevState where
  | offline
  | starting
  | online
  | quiescing
  | failed
deriving DecidableEq, Repr

/-- Reset causes (R164). -/
inductive ResetCause where
  | power
  | pin
  | soft
deriving DecidableEq, Repr

/-- Setup codes (R164). -/
inductive SetupCode where
  | none
  | badSize
  | badAlign
  | busError
deriving DecidableEq, Repr

/-- The kinds of access whose bus error fails the device (R164, R171). -/
inductive FailAccess where
  | controlRead
  | mirrorWrite
  | completionWrite
deriving DecidableEq, Repr

/-- A failure cause with the index of the ring whose access failed (R164). -/
structure Failure where
  access : FailAccess
  ring   : Fin 6
deriving DecidableEq, Repr

/-- The setup read in progress: the number of the next read and the contents of those read (R165). -/
structure SetupRead where
  next   : Fin 4
  chunks : List Block32
deriving DecidableEq, Repr

/-- The settings of IMOD (R147). -/
structure Imod where
  cplEn     : Bool
  failEn    : Bool
  setupEn   : Bool
  threshold : BitVec 8
  holdoff   : BitVec 16
deriving DecidableEq, Repr

/-! ### Rings, port and completion buffer -/

/-- A read started and not yet finished with its mirror write (R121, R126). -/
structure Fetch where
  slot      : Nat
  cancelled : Bool
deriving DecidableEq, Repr

/-- What a fetcher holds (R121). -/
structure Fetcher where
  base          : Addr
  size          : Nat
  head          : Nat
  tail          : Nat
  mirrorPending : Bool
  inFlight      : Option Fetch
deriving DecidableEq, Repr

/-- The access a grant has on the memory port, with its address and, for a write, what is written (R129). -/
inductive PortUse where
  /-- setup read `k` of Device State Control (R167) -/
  | setupRead (k : Fin 4) (addr : Addr)
  /-- the read of a fetch on ring `r` (R126) -/
  | fetchRead (r : Fin 5) (addr : Addr)
  /-- the mirror write under the grant of a fetch (R126) -/
  | fetchMirror (r : Fin 5) (addr : Addr) (value : Word)
  /-- a mirror write made alone (R125) -/
  | mirror (r : Fin 5) (addr : Addr) (value : Word)
  /-- a report write (R141) -/
  | report (e : Fin 24) (addr : Addr) (value : Block32)
deriving DecidableEq, Repr

/-- Who holds a RESERVED entry (R134). -/
inductive Holder where
  | axisRecord (a : Axis)
  | heldSync (a : Axis)
  | control
  | stopRequest (a : Axis)
deriving DecidableEq, Repr

/-- A completion entry (R134). -/
inductive Entry where
  | free
  | reserved (h : Holder)
  | filled (r : Report)
  | writing (r : Report)
deriving DecidableEq, Repr

/-- The write in flight of the Completion Writer: the entry and its slot (R139). -/
structure WriteFlight where
  entry : Fin 24
  slot  : Nat
deriving DecidableEq, Repr

/-- What the Completion Writer holds (R139). -/
structure Writer where
  base     : Addr
  size     : Nat
  tail     : Nat
  hostHead : Nat
  seq      : Word
  inFlight : Option WriteFlight
deriving DecidableEq, Repr

/-- The Control Interpreter: WAITING_RECORD, or HOLDING with the record in hand (R152). -/
inductive Interp where
  | waiting
  | holding (c : CtlRecord)
deriving DecidableEq, Repr

/-! ### An axis and its units -/

/-- Axis states (Table 1-1). -/
inductive AxisState where
  | off
  | idle
  | run
  | dwell
  | waitEvent
  | waitSync
  | rampDown
  | halted
deriving DecidableEq, Repr

/-- The active segment (R1): its record, the general entry it holds, the pulses issued for it up to its step count and
beyond it (R20), and the expiries counted toward its duration or timeout (R11, R15). -/
structure Segment where
  record   : AxisRecord
  entry    : Fin 24
  issued   : Nat
  overrun  : Nat
  expiries : Nat
deriving DecidableEq, Repr

/-- The record held in WAIT_SYNC with its group index and entry (R1, R71). -/
structure Held where
  record : AxisRecord
  group  : GroupIx
  entry  : Fin 24
deriving DecidableEq, Repr

/-- The two kinds of stop request (R46). -/
inductive StopKind where
  | stop
  | abort
deriving DecidableEq, Repr

/-- A pending stop request (R46). -/
structure StopReq where
  kind       : StopKind
  tag        : Word
  entry      : Fin 24
  superseded : Word
deriving DecidableEq, Repr

/-- An event latch (R94). -/
structure Latch where
  flag    : Bool
  overrun : Bool
  time    : Word
deriving DecidableEq, Repr

/-- A capture arm (R113). The remaining count is absent for a continuous arm. -/
structure CaptureArm where
  armed     : Bool
  source    : Source
  remaining : Option Nat
  tag       : Word
  missed    : Nat
deriving DecidableEq, Repr

/-- One axis: its sequencer (R1, R46, R62), profile generator (R26, R27), encoder unit (R98), step output unit (R106),
event latches (R94) and capture arm (R113). Times left are counted in ticks of 20 ns. -/
structure AxisBlock where
  st          : AxisState
  staging     : List AxisRecord
  active      : Option Segment
  held        : Option Held
  stopReq     : Option StopReq
  cause       : Option FaultCause
  further     : Nat
  /-- the outside mark (R62) -/
  outside     : Bool
  /-- the last record retired since the last ENABLE_AXIS (Table 3-2) -/
  lastRetired : Option RecId
  cfg         : AxisConfig
  cmdPos      : Word
  rate        : Nat
  frac        : Nat
  remaining   : Nat
  dir         : Dir
  firstMark   : Bool
  /-- the deceleration in force (R26) -/
  decel       : Nat
  periodSteps : Nat
  /-- the update-period timer: stopped, or the ticks left to the next expiry (R27) -/
  timer       : Option Nat
  encPos      : Word
  quadA       : Bool
  quadB       : Bool
  quadErrs    : Nat
  /-- the following-error accumulator (R103) -/
  acc         : Int
  /-- STEP is high while this holds the ticks left of the pulse (R106, R107) -/
  pulse       : Option Nat
  /-- the DIR output: high for reverse (R106) -/
  dirPin      : Bool
  en          : Bool
  /-- the pulses scheduled: the ticks left until each begins (R106) -/
  schedule    : List Nat
  /-- the direction setup mark (R106) -/
  setupMark   : Bool
  latches     : Vector Latch 6
  arm         : CaptureArm
deriving DecidableEq, Repr

/-! ### Groups and lines -/

/-- Sync group states (Table 4-1). -/
inductive GroupState where
  | free
  | armed
  | gathering
  | broken
deriving DecidableEq, Repr

/-- An entry of the Sync Group Table (R67). -/
structure Group where
  st       : GroupState
  members  : AxisSet
  arrived  : AxisSet
  reusable : Bool
  timeout  : Option Nat
  count    : Nat
  gen      : BitVec 16
deriving DecidableEq, Repr

/-- An input line in the qualifier (R82): its qualified level, its agreeing-sample run, and whether it has taken a
sample since the last reset. -/
structure LineState where
  level   : Bool
  run     : Nat
  sampled : Bool
deriving DecidableEq, Repr

/-! ### The whole machine -/

/-- The state of the AX4. `pending` is the queue of commands; `pins`, `fastDue`, `slowDue`, `subTick`, `claim` and
`freeCount` are the model's own (INVENTORY.md, State). -/
structure State where
  pending     : List Instr
  dev         : DevState
  resetCause  : ResetCause
  setupCode   : SetupCode
  failure     : Option Failure
  setupAddr   : Addr
  setupRead   : Option SetupRead
  suaLo       : Word
  suaHi       : Word
  postErr     : Bool
  headErr     : Bool
  cplFlag     : Bool
  failFlag    : Bool
  setupFlag   : Bool
  imod        : Imod
  writeCount  : Nat
  /-- the holdoff timer: stopped, or the ticks left -/
  holdoff     : Option Nat
  timeRunning : Bool
  time        : Word
  /-- the ticks of the present microsecond -/
  subTick     : Nat
  fetchers    : Vector Fetcher 5
  port        : Option PortUse
  /-- the round-robin pointer (R129) -/
  rr          : Fin 5
  entries     : Vector Entry 24
  fillQueue   : List (Fin 24)
  writer      : Writer
  interp      : Interp
  /-- a general entry a held control record has taken inside the present command (log entry 7) -/
  claim       : Option (Fin 24)
  axes        : Vector AxisBlock 4
  groups      : Vector Group 8
  lines       : Vector LineState 28
  inputs      : InputsConfig
  /-- the ticks left to the next slow sampling instant (R83) -/
  slowClock   : Nat
  slowDue     : Bool
  fastDue     : Bool
  /-- the raw levels of the input lines as last driven -/
  pins        : BitVec 28
  /-- the counter the free values of Config are read at -/
  freeCount   : Nat
deriving DecidableEq, Repr

/-- No command stops the AX4 with a fault: the spec gives every command an effect on the state in every state. A closed
type with no constructor says so (log entry 30). -/
inductive Fault : Type
deriving DecidableEq, Repr

/-- The reasons a command is refused. -/
inductive Refusal where
  /-- Raised by no arm: every command has its meaning. A refusal of this kind would be safe, since nothing is then claimed. -/
  | notModelled (mnemonic : String)
deriving DecidableEq, Repr

/-! ### Reset values -/

/-- The configuration after a reset (Table 1-2, R98, R106, R86, R88). -/
def AxisConfig.reset : AxisConfig where
  updatePeriod := 1000
  maxRate := 65536
  creepRate := 16
  jumpLimit := 4096
  stopDecel := 256
  countsPerStep := 0
  followWindow := 1000
  pulseWidth := 2
  dirSetup := 5
  inverted := false
  limitsOn := true
  limitHigh := true
  indexSrc := .own
  homeSrc := .own

/-- A latch that is clear (R94). -/
def Latch.clear : Latch where
  flag := false
  overrun := false
  time := 0

/-- A capture arm after a reset (Table 7-1). -/
def CaptureArm.reset : CaptureArm where
  armed := false
  source := .index
  remaining := none
  tag := 0
  missed := 0

/-- An axis after a reset (Tables 1-2, 2-2, 6-1, R106). -/
def AxisBlock.reset : AxisBlock where
  st := .off
  staging := []
  active := none
  held := none
  stopReq := none
  cause := none
  further := 0
  outside := false
  lastRetired := none
  cfg := AxisConfig.reset
  cmdPos := 0
  rate := 0
  frac := 0
  remaining := 0
  dir := .forward
  firstMark := false
  decel := 256
  periodSteps := 0
  timer := none
  encPos := 0
  quadA := false
  quadB := false
  quadErrs := 0
  acc := 0
  pulse := none
  dirPin := false
  en := false
  schedule := []
  setupMark := false
  latches := Vector.replicate 6 Latch.clear
  arm := CaptureArm.reset

/-- A sync group entry after a reset (Table 4-2). -/
def Group.reset : Group where
  st := .free
  members := 0
  arrived := 0
  reusable := false
  timeout := none
  count := 0
  gen := 0

/-- A fetcher after a reset (Table 8-1). -/
def Fetcher.reset : Fetcher where
  base := 0
  size := 0
  head := 0
  tail := 0
  mirrorPending := false
  inFlight := none

/-- The writer after a reset (R139). -/
def Writer.reset : Writer where
  base := 0
  size := 0
  tail := 0
  hostHead := 0
  seq := 0
  inFlight := none

/-- IMOD after a hardware reset (Table 11-1). -/
def Imod.reset : Imod where
  cplEn := false
  failEn := false
  setupEn := false
  threshold := 1
  holdoff := 0

/-- A line that has taken no sample since the reset (R82). R82 gives its level and its run (0) at that first sample; until then
both are DESIGN CHOICE, low and 0 (log entry 10). -/
def LineState.reset : LineState where
  level := false
  run := 0
  sampled := false

/-- The qualifier's settings after a reset (R82). -/
def InputsConfig.reset : InputsConfig where
  fastDepth := 3
  slowDepth := 4
  slowInterval := 10
  polarity := 0

/-- The machine right after a power-on reset (R166). -/
def State.reset : State where
  pending := []
  dev := .offline
  resetCause := .power
  setupCode := .none
  failure := none
  setupAddr := 0
  setupRead := none
  suaLo := 0
  suaHi := 0
  postErr := false
  headErr := false
  cplFlag := false
  failFlag := false
  setupFlag := false
  imod := Imod.reset
  writeCount := 0
  holdoff := none
  timeRunning := false
  time := 0
  subTick := 0
  fetchers := Vector.replicate 5 Fetcher.reset
  port := none
  rr := 4
  entries := Vector.replicate 24 Entry.free
  fillQueue := []
  writer := Writer.reset
  interp := .waiting
  claim := none
  axes := Vector.replicate 4 AxisBlock.reset
  groups := Vector.replicate 8 Group.reset
  lines := Vector.replicate 28 LineState.reset
  inputs := InputsConfig.reset
  slowClock := 500
  slowDue := true
  fastDue := true
  pins := 0
  freeCount := 0

end Sys2Proof.Machine
end

