-- ==== Sys2Proof/Machine/Ops.lean ====
section
/-! DEFINITION. The named operations over the parts of the state: access to an axis, a fetcher, an entry, a group and a
line; small sets; the completion buffer (R134 to R138); the fetchers' head set and cancellation (R127, R130). -/

namespace Sys2Proof.Machine
open Sys2Proof

/-! ### Access to the parts -/

/-- Apply `f` to every element of a vector. -/
def mapEach {α : Type} {n : Nat} (f : α → α) (v : Vector α n) : Vector α n := Vector.ofFn fun i => f v[i]

/-- The block of axis `a`. -/
def State.axis (s : State) (a : Axis) : AxisBlock := s.axes[a]

/-- Change the block of axis `a` by `f`. -/
def State.modAxis (s : State) (a : Axis) (f : AxisBlock → AxisBlock) : State :=
  { s with axes := s.axes.set a (f s.axes[a]) }

/-- Change every axis by `f`. -/
def State.mapAxes (s : State) (f : AxisBlock → AxisBlock) : State :=
  { s with axes := mapEach f s.axes }

/-- The fetcher of ring `r`. -/
def State.fetcher (s : State) (r : Fin 5) : Fetcher := s.fetchers[r]

/-- Change the fetcher of ring `r` by `f`. -/
def State.modFetcher (s : State) (r : Fin 5) (f : Fetcher → Fetcher) : State :=
  { s with fetchers := s.fetchers.set r (f s.fetchers[r]) }

/-- Completion entry `e`. -/
def State.entry (s : State) (e : Fin 24) : Entry := s.entries[e]

/-- Set completion entry `e`. -/
def State.setEntry (s : State) (e : Fin 24) (v : Entry) : State :=
  { s with entries := s.entries.set e v }

/-- Sync group entry `g`. -/
def State.group (s : State) (g : GroupIx) : Group := s.groups[g]

/-- Change sync group entry `g` by `f`. -/
def State.modGroup (s : State) (g : GroupIx) (f : Group → Group) : State :=
  { s with groups := s.groups.set g (f s.groups[g]) }

/-- The number of a line among the 28: six for each axis in the order of Table 12-9, then the four triggers. -/
def lineIx : Line → Fin 28
  | .encA a => ⟨6 * a.val, by omega⟩
  | .encB a => ⟨6 * a.val + 1, by omega⟩
  | .encI a => ⟨6 * a.val + 2, by omega⟩
  | .limP a => ⟨6 * a.val + 3, by omega⟩
  | .limN a => ⟨6 * a.val + 4, by omega⟩
  | .home a => ⟨6 * a.val + 5, by omega⟩
  | .trg m => ⟨24 + m.val, by omega⟩

/-- The qualifier's state of a line. -/
def State.line (s : State) (l : Line) : LineState := s.lines[lineIx l]

/-- Set the qualifier's state of a line. -/
def State.setLine (s : State) (l : Line) (v : LineState) : State :=
  { s with lines := s.lines.set (lineIx l) v }

/-- The four axes. -/
def allAxes : List Axis := [0, 1, 2, 3]

/-- The eight groups. -/
def allGroups : List GroupIx := [0, 1, 2, 3, 4, 5, 6, 7]

/-- Whether the set holds axis `a`. -/
def setHas (m : AxisSet) (a : Axis) : Bool := m.getLsbD a.val

/-- The set with axis `a`. -/
def setInsert (m : AxisSet) (a : Axis) : AxisSet := m ||| (1#4 <<< a.val)

/-- The set without axis `a`. -/
def setErase (m : AxisSet) (a : Axis) : AxisSet := m &&& ~~~(1#4 <<< a.val)

/-- The axes of a set, lowest first. -/
def setList (m : AxisSet) : List Axis := allAxes.filter (setHas m)

/-- The lowest-numbered member of a set (R75). -/
def setLowest (m : AxisSet) : Option Axis := (setList m).head?

/-- The ring of axis `a` (rings 1 to 4). -/
def axisRing (a : Axis) : Fin 5 := a.succ

/-- The fault slot of axis `a` (R134). -/
def faultSlot (a : Axis) : Fin 24 := ⟨16 + a.val, by omega⟩

/-- The stop slot of axis `a` (R134). -/
def stopSlot (a : Axis) : Fin 24 := ⟨20 + a.val, by omega⟩

/-- 20 ns ticks in `us` microseconds. -/
def ticksOf (us : Nat) : Nat := us * 50

/-- A count that saturates at 255. -/
def satInc (n : Nat) : Nat := if n < 255 then n + 1 else n

/-! ### Events of one instant -/

/-- Take the elements of a list one by one in the order the free value gives (log entry 3). -/
def arrange {α : Type} (seed : Nat) : Nat → List α → List α
  | 0, l => l
  | _ + 1, [] => []
  | _ + 1, [x] => [x]
  | n + 1, x :: y :: l =>
    let l' := x :: y :: l
    let i := Config.freeOrder (seed + n) % l'.length
    (l'[i]?).getD x :: arrange seed n (l'.eraseIdx i)

/-- Run `f` on every element of `l`, in the order the free value gives where `l` has more than one (log entry 3). -/
def inSomeOrder {α : Type} (l : List α) (f : α → State → State) (s : State) : State :=
  (arrange s.freeCount l.length l).foldl (fun t x => f x t) { s with freeCount := s.freeCount + l.length }

/-! ### Kinds and ids -/

/-- Kind codes of axis records (Table 12-3). -/
def AxisRecord.kind (r : AxisRecord) : BitVec 5 :=
  match r.body with
  | .move _ => 0x01
  | .dwell _ _ => 0x02
  | .wait _ => 0x03
  | .setpos _ _ => 0x04
  | .mark => 0x05
  | .invalid k => k

/-- The tag and kind of an axis record. -/
def AxisRecord.id (r : AxisRecord) : RecId := { tag := r.tag, kind := r.kind }

/-- Kind codes of control records (Table 12-3). -/
def CtlBody.kind : CtlBody → BitVec 5
  | .configureAxis _ _ => 0x10
  | .configureInputs _ => 0x11
  | .enableAxis _ => 0x12
  | .disableAxis _ => 0x13
  | .stopAxis _ _ => 0x14
  | .abortAxis _ => 0x15
  | .clearFault _ _ _ => 0x16
  | .defineGroup _ _ _ _ => 0x17
  | .clearGroup _ => 0x18
  | .setCaptureArm _ _ _ => 0x19
  | .setCaptureDisarm _ => 0x19
  | .readStatus _ => 0x1A
  | .nop => 0x1B
  | .invalid k _ => k

/-- Whether a kind code names a kind that carries an axis index (Table 12-6, R174). -/
def kindNamesAxis (k : BitVec 5) : Bool :=
  k == 0x10 || (0x12 ≤ k.toNat && k.toNat ≤ 0x16) || k == 0x19 || k == 0x1A

/-- The axis a control record names, where it names one of 0 to 3 (R155, R174). -/
def CtlBody.axis? : CtlBody → Option Axis
  | .configureAxis a _ => some a
  | .configureInputs _ => none
  | .enableAxis a => some a
  | .disableAxis a => some a
  | .stopAxis a _ => some a
  | .abortAxis a => some a
  | .clearFault a _ _ => some a
  | .defineGroup _ _ _ _ => none
  | .clearGroup _ => none
  | .setCaptureArm a _ _ => some a
  | .setCaptureDisarm a => some a
  | .readStatus a => some a
  | .nop => none
  | .invalid k i => if h : i.toNat < 4 then (if kindNamesAxis k then some ⟨i.toNat, h⟩ else none) else none

/-- The record as staged or held at a halt: the active or held record, else the last one retired since ENABLE_AXIS, else
tag 0 and echo 0 (Table 3-2, R175). -/
def AxisBlock.faultId (x : AxisBlock) : RecId :=
  match x.active, x.held with
  | some g, _ => g.record.id
  | none, some h => h.record.id
  | none, none => x.lastRetired.getD { tag := 0, kind := 0 }

/-! ### Conditions on an axis -/

/-- RUN and RAMP_DOWN are the two moving states. -/
def AxisState.moving : AxisState → Bool
  | .run => true
  | .rampDown => true
  | _ => false

/-- The accumulator lies outside the following window (R104). -/
def AxisBlock.outsideWindow (x : AxisBlock) : Bool := x.cfg.followWindow < x.acc.natAbs

/-- Add to the accumulator, saturating at ±2,147,483,647 (R103). -/
def satAcc (acc d : Int) : Int :=
  if acc + d > 2147483647 then 2147483647
  else if acc + d < -2147483647 then -2147483647
  else acc + d

/-- The group an axis waits on in WAIT_SYNC. -/
def AxisBlock.waitsOn (x : AxisBlock) : Option GroupIx :=
  if x.st = .waitSync then x.held.map Held.group else none

/-- The rate, the fraction and the period's step count become 0 and the pulses not yet begun are withheld (R35, R45, R110). -/
def AxisBlock.still (x : AxisBlock) : AxisBlock :=
  { x with rate := 0, frac := 0, periodSteps := 0, schedule := [], setupMark := false }

/-- The tag of the newest staged record, 0 when there is none (R51). -/
def AxisBlock.lastTag (x : AxisBlock) : Word := (x.staging.getLast?.map AxisRecord.tag).getD 0

/-! ### Reports -/

/-- A report of axis `a` as it stands (R138). -/
def axisReport (s : State) (a : Axis) (kind : ReportKind) (status : Status) (cause : Option FaultCause) (id : RecId)
    (flushed ringHead : Nat) (wa wb : Word) : Report where
  seq := 0
  source := .axis a
  kind := kind
  status := status
  cause := cause
  echo := id.kind
  flushed := flushed
  ringHead := ringHead
  tag := id.tag
  time := s.time
  cmd := (s.axis a).cmdPos
  enc := (s.axis a).encPos
  wordA := wa
  wordB := wb

/-- A report of a control record: the positions are those of the axis named, or 0 (R138, R155). -/
def controlReport (s : State) (kind : ReportKind) (status : Status) (cause : Option FaultCause) (id : RecId)
    (a? : Option Axis) (flushed ringHead : Nat) (wa wb : Word) : Report where
  seq := 0
  source := .control
  kind := kind
  status := status
  cause := cause
  echo := id.kind
  flushed := flushed
  ringHead := ringHead
  tag := id.tag
  time := s.time
  cmd := (a?.map fun a => (s.axis a).cmdPos).getD 0
  enc := (a?.map fun a => (s.axis a).encPos).getD 0
  wordA := wa
  wordB := wb

/-! ### The completion buffer -/

/-- Whether an entry is FREE. -/
def Entry.isFree : Entry → Bool
  | .free => true
  | _ => false

/-- Entries 0 to 15, the general pool (R134). -/
def generalEntries : List (Fin 24) := [0, 1, 2, 3, 4, 5, 6, 7, 8, 9, 10, 11, 12, 13, 14, 15]

/-- A FREE general entry, if there is one: the lowest (R135, log entry 8). -/
def State.freeGeneral (s : State) : Option (Fin 24) := generalEntries.find? fun e => (s.entry e).isFree

/-- Ask the general pool for an entry (R135): the entry given, RESERVED to `h`, or none. -/
def takeGeneral (h : Holder) (s : State) : Option (Fin 24 × State) :=
  s.freeGeneral.map fun e => (e, s.setEntry e (.reserved h))

/-- Fill entry `e`: it becomes FILLED and joins the back of the fill queue (R137). While the device is FAILED no entry is
filled (R22). -/
def fill (e : Fin 24) (r : Report) (s : State) : State :=
  if s.dev = .failed then s
  else { s.setEntry e (.filled r) with fillQueue := s.fillQueue ++ [e] }

/-- Whether a record may take a general entry while the interpreter holds it (R154): every record it holds may. -/
def Interp.wantsGeneral : Interp → Bool
  | .waiting => false
  | .holding _ => true

/-- Release a general entry unused (R6). A control record held by the interpreter may take it at that instant ahead of the
other reservers of the same instant: a free value decides (R154, log entry 7). -/
def release (e : Fin 24) (s : State) : State :=
  if s.interp.wantsGeneral then
    if s.claim.isNone && Config.freeClaim s.freeCount then
      { s.setEntry e (.reserved .control) with claim := some e, freeCount := s.freeCount + 1 }
    else
      { s.setEntry e .free with freeCount := s.freeCount + 1 }
  else s.setEntry e .free

/-- Discard the buffer: every entry FREE and the fill queue empty (R146). -/
def discardBuffer (s : State) : State :=
  { s with entries := Vector.replicate 24 .free, fillQueue := [], claim := none }

/-- The buffer is empty when every entry is FREE (R134). -/
def State.bufferEmpty (s : State) : Bool := s.entries.toList.all Entry.isFree

/-! ### Fetchers -/

/-- Cancel the fetch in flight, if any (R127). -/
def Fetcher.cancel (f : Fetcher) : Fetcher :=
  { f with inFlight := f.inFlight.map fun i => { i with cancelled := true } }

/-- Set the head to the last tail taken, set the mirror-pending mark and cancel the fetch in flight (R130). -/
def Fetcher.setHead (f : Fetcher) : Fetcher :=
  { f.cancel with head := f.tail, mirrorPending := true }

/-- One slot forward in a ring. -/
def ringNext (i size : Nat) : Nat := (i + 1) % size

/-- How far `b` lies ahead of `a` in a ring: (b − a) modulo size. -/
def ringDist (a b size : Nat) : Nat := (b + size - a) % size

end Sys2Proof.Machine
end

