-- ==== Sys2Proof/Machine/Operands.lean ====
section
/-! DEFINITION. The operand forms of the AX4: the byte layouts of submitted records and of the setup block as they are
read (R128, R168, R174), and of reports and mirror words as they are written (R175). A 32-byte object is a little-endian
number, so byte b lies at bit 8b. -/

namespace Sys2Proof.Machine
open Sys2Proof

/-! ### Fields -/

/-- `n` bits of a 32-byte object from bit `lo`, as a number. -/
def fld (d : Block32) (lo n : Nat) : Nat := (d.extractLsb' lo n).toNat

/-- One bit of a 32-byte object. -/
def bit (d : Block32) (i : Nat) : Bool := d.getLsbD i

/-- The mask of the fields in a list of (first bit, width). -/
def maskOf (l : List (Nat × Nat)) : Block32 :=
  l.foldl (fun m p => m ||| (BitVec.ofNat 256 (2 ^ p.2 - 1) <<< p.1)) 0

/-- Every bit outside the listed fields is 0 (R174, reserved bits and bytes). -/
def onlyFields (d : Block32) (l : List (Nat × Nat)) : Bool := d &&& ~~~(maskOf l) == 0

/-- A 32-bit field of a 32-byte object. -/
def word (d : Block32) (lo : Nat) : Word := d.extractLsb' lo 32

/-- The kind code of a record: header bits 0 to 4 (Table 12-2). -/
def headerKind (d : Block32) : BitVec 5 := d.extractLsb' 0 5

/-- The report flag of an axis record: bit 0 of byte 1. -/
def headerReport (d : Block32) : Bool := bit d 8

/-- Header byte 2: the axis or group index. -/
def headerIndex (d : Block32) : BitVec 8 := d.extractLsb' 16 8

/-- Presence bit `i` of header byte 3 (Table 12-4). -/
def present (d : Block32) (i : Nat) : Bool := bit d (24 + i)

/-- The host tag (Table 12-2). -/
def headerTag (d : Block32) : Word := word d 32

/-- A field list, kept only where its optional field is present. -/
def whenPresent (p : Bool) (l : List (Nat × Nat)) : List (Nat × Nat) := if p then l else []

/-- The value of an optional field. -/
def optField {α : Type} (p : Bool) (v : α) : Option α := if p then some v else none

/-- Header fields of an axis record: kind, report flag, host tag. -/
def axisHeader : List (Nat × Nat) := [(0, 5), (8, 1), (32, 32)]

/-- Header fields of a control record that carries an index: kind, byte 2, host tag. -/
def indexHeader : List (Nat × Nat) := [(0, 5), (16, 8), (32, 32)]

/-- Header fields of a control record that carries no index. -/
def plainHeader : List (Nat × Nat) := [(0, 5), (32, 32)]

/-! ### Codes -/

/-- Source codes (section 12.2). -/
def sourceOfCode (n : Nat) : Option Source :=
  match n with
  | 0 => some .index
  | 1 => some .home
  | 2 => some (.trg 0)
  | 3 => some (.trg 1)
  | 4 => some (.trg 2)
  | 5 => some (.trg 3)
  | _ => none

/-- The number of a source: its code, and its place among the six latches. -/
def sourceIx : Source → Fin 6
  | .index => 0
  | .home => 1
  | .trg m => ⟨2 + m.val, by omega⟩

/-- Index source and home source codes of CONFIGURE_AXIS (section 12.2). -/
def lineSourceOfCode (n : Nat) : Option LineSource :=
  match n with
  | 0 => some .own
  | 1 => some (.trg 0)
  | 2 => some (.trg 1)
  | 3 => some (.trg 2)
  | 4 => some (.trg 3)
  | _ => none

/-- Direction codes. -/
def dirOfCode (n : Nat) : Option Dir :=
  match n with
  | 0 => some .forward
  | 1 => some .reverse
  | _ => none

/-- Exit codes. -/
def exitOfCode (n : Nat) : Option Exit :=
  match n with
  | 0 => some .rest
  | 1 => some .continue
  | _ => none

/-- Policy codes. -/
def policyOfCode (n : Nat) : Option Policy :=
  match n with
  | 0 => some .latched
  | 1 => some .fresh
  | _ => none

/-! ### Range checks on records (Tables 8-2 and 10-3) -/

/-- An optional value, where present, lies in a range. -/
def optIn (o : Option Nat) (lo hi : Nat) : Bool :=
  match o with
  | none => true
  | some v => lo ≤ v && v ≤ hi

/-- The range checks of Table 8-2. Sync groups lie in 0 to 7 by their type. -/
def AxisBody.inRange : AxisBody → Bool
  | .move m =>
    (1 ≤ m.steps && m.steps ≤ 16777215) && optIn m.startRate 0 262144 && (-65536 ≤ m.delta && m.delta ≤ 65536)
  | .dwell d _ => 1 ≤ d && d ≤ 16777215
  | .wait w => optIn w.timeout 1 16777215
  | .setpos c e => c.isSome || e.isSome
  | .mark => true
  | .invalid _ => false

/-- How many axes a member set names. -/
def setSize (m : AxisSet) : Nat := (setList m).length

/-- The range checks of Table 10-3. Axis and group indices lie in range by their types. -/
def CtlBody.inRange : CtlBody → Bool
  | .configureInputs c =>
    (1 ≤ c.fastDepth && c.fastDepth ≤ 7) && (1 ≤ c.slowInterval && c.slowInterval ≤ 1000)
      && (2 ≤ c.slowDepth && c.slowDepth ≤ 15)
  | .stopAxis _ d => optIn d 1 262144
  | .defineGroup _ m _ t => 2 ≤ setSize m && optIn t 1 65535
  | .setCaptureArm _ _ n => optIn n 1 255
  | .invalid _ _ => false
  | _ => true

/-- Header byte 2 as a record with this body carries it. -/
def CtlBody.index : CtlBody → BitVec 8
  | .invalid _ i => i
  | .defineGroup g _ _ _ => BitVec.ofNat 8 g.val
  | .clearGroup g => BitVec.ofNat 8 g.val
  | b => (b.axis?.map fun a => BitVec.ofNat 8 a.val).getD 0

/-- A record whose fields fail the range checks is marked invalid with its kind code (R128, R174). -/
def CtlBody.checked (b : CtlBody) : CtlBody := if b.inRange then b else .invalid b.kind b.index

/-! ### Reading an axis record (Table 12-5) -/

/-- The body of an axis record, where its encoding checks pass (R174). -/
def readAxisBody (d : Block32) : Option AxisBody :=
  if headerKind d = 0x01 then
    if onlyFields d (axisHeader ++ [(24, 2), (64, 24), (128, 32), (160, 8), (168, 8)]
        ++ whenPresent (present d 0) [(96, 32)] ++ whenPresent (present d 1) [(176, 8)]) then
      match dirOfCode (fld d 160 8), exitOfCode (fld d 168 8) with
      | some dir, some ex =>
        if h : fld d 176 8 < 8 then
          some (.move {
            dir := dir, steps := fld d 64 24, startRate := optField (present d 0) (fld d 96 32),
            delta := (word d 128).toInt, exit := ex, sync := optField (present d 1) ⟨fld d 176 8, h⟩ })
        else none
      | _, _ => none
    else none
  else if headerKind d = 0x02 then
    if onlyFields d (axisHeader ++ [(25, 1), (64, 24)] ++ whenPresent (present d 1) [(96, 8)]) then
      if h : fld d 96 8 < 8 then
        some (.dwell (fld d 64 24) (optField (present d 1) ⟨fld d 96 8, h⟩))
      else none
    else none
  else if headerKind d = 0x03 then
    if onlyFields d (axisHeader ++ [(26, 2), (64, 8), (72, 8)] ++ whenPresent (present d 2) [(96, 24)]
        ++ whenPresent (present d 3) [(128, 32)]) then
      match sourceOfCode (fld d 64 8), policyOfCode (fld d 72 8) with
      | some src, some pol =>
        some (.wait {
          src := src, policy := pol, timeout := optField (present d 2) (fld d 96 24),
          ref := optField (present d 3) (word d 128) })
      | _, _ => none
    else none
  else if headerKind d = 0x04 then
    if onlyFields d (axisHeader ++ [(28, 2)] ++ whenPresent (present d 4) [(64, 32)]
        ++ whenPresent (present d 5) [(96, 32)]) then
      some (.setpos (optField (present d 4) (word d 64)) (optField (present d 5) (word d 96)))
    else none
  else if headerKind d = 0x05 then
    if onlyFields d axisHeader then some .mark else none
  else none

/-- An axis record as the fetcher stages it: valid, or marked invalid with its host tag, report flag and kind code as read
(R128, R174). -/
def readAxisRecord (d : Block32) : AxisRecord where
  tag := headerTag d
  report := headerReport d
  body :=
    match readAxisBody d with
    | some b => if b.inRange then b else .invalid (headerKind d)
    | none => .invalid (headerKind d)

/-! ### Reading a control record (Table 12-6) -/

/-- A body that names an axis in header byte 2, where the index lies in 0 to 3. -/
def withAxis (d : Block32) (f : Axis → CtlBody) : Option CtlBody :=
  if h : (headerIndex d).toNat < 4 then some (f ⟨(headerIndex d).toNat, h⟩) else none

/-- A body that names a group in header byte 2, where the index lies in 0 to 7. -/
def withGroup (d : Block32) (f : GroupIx → CtlBody) : Option CtlBody :=
  if h : (headerIndex d).toNat < 8 then some (f ⟨(headerIndex d).toNat, h⟩) else none

/-- The configuration fields of a CONFIGURE_AXIS (Table 12-6); none where a source code is unknown. -/
def readAxisConfig (d : Block32) : Option AxisConfig :=
  match lineSourceOfCode (fld d 248 3), lineSourceOfCode (fld d 252 3) with
  | some i, some h =>
    some {
      updatePeriod := fld d 64 16, followWindow := fld d 80 16, maxRate := fld d 96 32, creepRate := fld d 128 32,
      jumpLimit := fld d 160 32, stopDecel := fld d 192 32, countsPerStep := fld d 224 8, pulseWidth := fld d 232 4,
      inverted := bit d 236, limitsOn := bit d 237, limitHigh := bit d 238, dirSetup := fld d 240 8,
      indexSrc := i, homeSrc := h }
  | _, _ => none

/-- A record with an index and no further fields. -/
def readIndexed (d : Block32) (f : Axis → CtlBody) : Option CtlBody :=
  if onlyFields d indexHeader then withAxis d f else none

/-- The body of a control record, where its encoding checks pass (R174). -/
def readCtlBody (d : Block32) : Option CtlBody :=
  if headerKind d = 0x10 then
    if onlyFields d (indexHeader ++ [(64, 16), (80, 16), (96, 32), (128, 32), (160, 32), (192, 32), (224, 8), (232, 7),
        (240, 8), (248, 3), (252, 3)]) then
      (readAxisConfig d).bind fun c => withAxis d fun a => .configureAxis a c
    else none
  else if headerKind d = 0x11 then
    if onlyFields d (plainHeader ++ [(64, 8), (72, 8), (80, 16), (96, 12)]) then
      some (.configureInputs {
        fastDepth := fld d 64 8, slowDepth := fld d 72 8, slowInterval := fld d 80 16,
        polarity := d.extractLsb' 96 12 })
    else none
  else if headerKind d = 0x12 then readIndexed d .enableAxis
  else if headerKind d = 0x13 then readIndexed d .disableAxis
  else if headerKind d = 0x14 then
    if onlyFields d (indexHeader ++ [(30, 1)] ++ whenPresent (present d 6) [(64, 32)]) then
      withAxis d fun a => .stopAxis a (optField (present d 6) (fld d 64 32))
    else none
  else if headerKind d = 0x15 then readIndexed d .abortAxis
  else if headerKind d = 0x16 then
    if onlyFields d (indexHeader ++ [(64, 2)]) then withAxis d fun a => .clearFault a (bit d 64) (bit d 65) else none
  else if headerKind d = 0x17 then
    if onlyFields d (indexHeader ++ [(26, 1), (64, 4), (72, 1)] ++ whenPresent (present d 2) [(80, 16)]) then
      withGroup d fun g => .defineGroup g (d.extractLsb' 64 4) (bit d 72) (optField (present d 2) (fld d 80 16))
    else none
  else if headerKind d = 0x18 then
    if onlyFields d indexHeader then withGroup d .clearGroup else none
  else if headerKind d = 0x19 then
    if fld d 64 8 = 0 then
      if onlyFields d (indexHeader ++ [(31, 1), (64, 8), (72, 8)] ++ whenPresent (present d 7) [(80, 8)]) then
        (sourceOfCode (fld d 72 8)).bind fun src =>
          withAxis d fun a => .setCaptureArm a src (optField (present d 7) (fld d 80 8))
      else none
    else if fld d 64 8 = 1 then
      if onlyFields d (indexHeader ++ [(64, 8)]) then withAxis d .setCaptureDisarm else none
    else none
  else if headerKind d = 0x1A then readIndexed d .readStatus
  else if headerKind d = 0x1B then
    if onlyFields d plainHeader then some .nop else none
  else none

/-- A control record as the fetcher hands it to the interpreter: valid, or marked invalid with its host tag, its kind code
and header byte 2 as read (R128, R156, R174). -/
def readCtlRecord (d : Block32) : CtlRecord where
  tag := headerTag d
  body :=
    match readCtlBody d with
    | some b => if b.inRange then b else .invalid (headerKind d) (headerIndex d)
    | none => .invalid (headerKind d) (headerIndex d)

/-! ### The setup block (Table 12-1) -/

/-- The base address of ring `r` in the block's four reads. -/
def setupBase (chunks : List Block32) (r : Fin 6) : Addr :=
  ((chunks[r.val / 2]?).getD 0).extractLsb' (128 * (r.val % 2)) 64

/-- The size of ring `r` in the block's four reads. -/
def setupSize (chunks : List Block32) (r : Fin 6) : Nat :=
  fld ((chunks[r.val / 2]?).getD 0) (128 * (r.val % 2) + 64) 32

/-- The sizes a ring may have: the powers of two from 8 to 1024 (R168). -/
def ringSizes : List Nat := [8, 16, 32, 64, 128, 256, 512, 1024]

/-- The first check of the block that fails, in ring order, size before base (R168): NONE when the block is valid. -/
def judgeSetup (chunks : List Block32) : List (Fin 6) → SetupCode
  | [] => .none
  | r :: rs =>
    if ¬ ringSizes.contains (setupSize chunks r) then .badSize
    else if (setupBase chunks r).toNat % 32 ≠ 0 then .badAlign
    else judgeSetup chunks rs

/-- The head mirror word of submission ring `r` (Table 12-1). An address past 2^64 is taken modulo 2^64: DESIGN CHOICE (log entry
33). -/
def mirrorAddr (setup : Addr) (r : Fin 5) : Addr := setup + BitVec.ofNat 64 (96 + 4 * r.val)

/-- Slot `i` of a ring (R121), modulo 2^64 (log entry 33). -/
def slotAddr (base : Addr) (i : Nat) : Addr := base + BitVec.ofNat 64 (32 * i)

/-- A head mirror word: the head in bits 0 to 9, the rest 0 (R175). -/
def mirrorWord (head : Nat) : Word := (BitVec.ofNat 10 head).setWidth 32

/-! ### Writing a report (Tables 12-7 and 12-8) -/

/-- Source codes of a report. -/
def ReportSource.code : ReportSource → BitVec 3
  | .control => 0
  | .axis a => BitVec.ofNat 3 (a.val + 1)

/-- Report kind codes. -/
def ReportKind.code : ReportKind → BitVec 3
  | .segment => 0
  | .fault => 1
  | .control => 2
  | .capture => 3
  | .status => 4

/-- Status codes (Table 12-8). -/
def Status.code : Status → BitVec 4
  | .ok => 0
  | .timeout => 1
  | .stopped => 2
  | .aborted => 3
  | .halted => 4
  | .invalid => 5
  | .invalidConfig => 6
  | .notAllowed => 7
  | .busy => 8
  | .reportPending => 9

/-- Fault cause codes (Table 12-8). -/
def FaultCause.code : FaultCause → BitVec 4
  | .limitPos => 1
  | .limitNeg => 2
  | .following => 3
  | .encoder => 4
  | .underrun => 5
  | .sequence => 6
  | .rateJump => 7
  | .recordInvalid => 8
  | .syncBroken => 9
  | .busError => 10

/-- The fault cause field: 0 for none. -/
def causeCode (c : Option FaultCause) : BitVec 4 := (c.map FaultCause.code).getD 0

/-- Bytes 4 to 7 of a report. -/
def Report.header (r : Report) : Word :=
  BitVec.ofNat 10 r.ringHead ++ BitVec.ofNat 3 r.flushed ++ r.echo ++ causeCode r.cause ++ r.status.code ++ r.kind.code
    ++ r.source.code

/-- The 32 bytes of a report. -/
def Report.bytes (r : Report) : Block32 :=
  r.wordB ++ r.wordA ++ r.enc ++ r.cmd ++ r.time ++ r.tag ++ r.header ++ r.seq

end Sys2Proof.Machine
end

