-- ==== Sys2Proof/Machine/Flags.lean ====
section
/-! DEFINITION. Status words, output lines and register reads: the FAULT and IRQ outputs (R65, R150), STS, ICAUSE and IMOD
as they read (R162, R164, Table 12-10), the STATUS words of READ_STATUS (R159) and the capture word (Table 12-9). -/

namespace Sys2Proof.Machine
open Sys2Proof

/-! ### Summary outputs -/

/-- The any-axis-halted item of STS (R164). -/
def State.anyHalted (s : State) : Bool := allAxes.any fun a => (s.axis a).st == .halted

/-- The FAULT output (R65, R172). -/
def State.faultOut (s : State) : Bool := s.anyHalted || s.dev == .failed

/-- The IRQ line (R150, R172). -/
def State.irqOut (s : State) : Bool :=
  (s.cplFlag && s.imod.cplEn) || (s.failFlag && s.imod.failEn) || (s.setupFlag && s.imod.setupEn)

/-- The level of STEP (R106, R107). -/
def AxisBlock.stepPin (x : AxisBlock) : Bool := x.pulse.isSome

/-! ### Register reads -/

/-- Device state codes (Table 12-10). -/
def DevState.code : DevState → Nat
  | .offline => 0
  | .starting => 1
  | .online => 2
  | .quiescing => 3
  | .failed => 4

/-- Reset cause codes. -/
def ResetCause.code : ResetCause → Nat
  | .power => 0
  | .pin => 1
  | .soft => 2

/-- Setup codes. -/
def SetupCode.code : SetupCode → Nat
  | .none => 0
  | .badSize => 1
  | .badAlign => 2
  | .busError => 3

/-- Failure cause codes. -/
def FailAccess.code : FailAccess → Nat
  | .controlRead => 1
  | .mirrorWrite => 2
  | .completionWrite => 3

/-- A flag as a number. -/
def bnat (b : Bool) : Nat := if b then 1 else 0

/-- STS as it reads (R164, Table 12-10). -/
def State.sts (s : State) : Word :=
  BitVec.ofNat 32 (s.dev.code + s.resetCause.code * 2 ^ 4 + s.setupCode.code * 2 ^ 8
    + (s.failure.map fun f => f.access.code * 2 ^ 12 + f.ring.val * 2 ^ 16).getD 0
    + bnat s.postErr * 2 ^ 24 + bnat s.headErr * 2 ^ 25 + bnat s.anyHalted * 2 ^ 28)

/-- ICAUSE as it reads. -/
def State.icause (s : State) : Word :=
  BitVec.ofNat 32 (bnat s.cplFlag + bnat s.failFlag * 2 + bnat s.setupFlag * 4)

/-- IMOD as it reads. -/
def Imod.read (m : Imod) : Word :=
  BitVec.ofNat 32 (bnat m.cplEn + bnat m.failEn * 2 + bnat m.setupEn * 4 + m.threshold.toNat * 2 ^ 8
    + m.holdoff.toNat * 2 ^ 16)

/-- A read of a host register: its value, and no change of state (R162, R163, log entry 28). -/
def State.readReg (s : State) : HostReg → Word
  | .ctl => 0
  | .sts => s.sts
  | .suaLo => s.suaLo
  | .suaHi => s.suaHi
  | .tailpost => 0
  | .chead => BitVec.ofNat 32 s.writer.hostHead
  | .icause => s.icause
  | .imod => s.imod.read

/-! ### Report words -/

/-- Axis state codes (section 12.5). -/
def AxisState.code : AxisState → Nat
  | .off => 0
  | .idle => 1
  | .run => 2
  | .dwell => 3
  | .waitEvent => 4
  | .waitSync => 5
  | .rampDown => 6
  | .halted => 7

/-- Word A of a STATUS report (Table 12-9). -/
def statusWordA (x : AxisBlock) : Word :=
  BitVec.ofNat 32 (x.rate + x.st.code * 2 ^ 20 + x.further * 2 ^ 24)

/-- A list of levels as bits from the low bit. -/
def bitsOf : List Bool → Nat
  | [] => 0
  | b :: l => bnat b + 2 * bitsOf l

/-- The ten qualified levels a STATUS report shows for axis `a`, in the order of section 12.5. -/
def statusLevels (s : State) (a : Axis) : List Bool :=
  [(s.line (.encA a)).level, (s.line (.encB a)).level, (s.line (.encI a)).level, (s.line (.limP a)).level,
    (s.line (.limN a)).level, (s.line (.home a)).level, (s.line (.trg 0)).level, (s.line (.trg 1)).level,
    (s.line (.trg 2)).level, (s.line (.trg 3)).level]

/-- Word B of a STATUS report (Table 12-9). -/
def statusWordB (s : State) (a : Axis) : Word :=
  let x := s.axis a
  BitVec.ofNat 32 (bitsOf (x.latches.toList.map Latch.flag) + bitsOf (x.latches.toList.map Latch.overrun) * 2 ^ 6
    + bitsOf (statusLevels s a) * 2 ^ 12 + x.quadErrs * 2 ^ 24)

/-- The capture word of an arm (section 12.5). -/
def captureWord (m : CaptureArm) : Word :=
  BitVec.ofNat 32 (bnat m.armed + (sourceIx m.source).val * 2 ^ 4 + m.remaining.getD 0 * 2 ^ 8
    + bnat m.remaining.isNone * 2 ^ 16)

/-- Group state codes (Table 12-9). -/
def GroupState.code : GroupState → Nat
  | .free => 0
  | .armed => 1
  | .gathering => 2
  | .broken => 3

/-- Word A of a DEFINE_GROUP or CLEAR_GROUP completion: the previous state and the axes halted (Table 12-9). -/
def groupWordA (st : GroupState) (halted : Nat) : Word := BitVec.ofNat 32 (st.code + halted * 2 ^ 8)

end Sys2Proof.Machine
end

