-- ==== Sys2Proof/Machine/Sequencer.lean ====
section
/-! DEFINITION. The shared operations of the Axis Sequencer and the Sync Group Table: retirement (R18 to R20), entry to HALTED
(R59, R60), the rest instant (R51), the break of a group (R76, R77), the start of a MOVE from rest (R9), the end of a WAIT (R13),
arrival and release (R70 to R73), the computation of a period (R29 to R35), the ramp (R42 to R45) and going to OFF (R21, R22). -/

namespace Sys2Proof.Machine
open Sys2Proof

/-! ### Retirement -/

/-- The two kind-specific words of a MOVE or DWELL that retires before its end: steps issued and overrun, or the expiries
counted (R11, R20). A WAIT that consumed no latch, a SETPOS and a MARK have 0 in both. -/
def Segment.words (g : Segment) : Word × Word :=
  match g.record.body with
  | .move _ => (BitVec.ofNat 32 g.issued, BitVec.ofNat 32 g.overrun)
  | .dwell _ _ => (BitVec.ofNat 32 g.expiries, 0)
  | _ => (0, 0)

/-- Fill the general entry of a record with its SEGMENT report, whose time is that of its retirement, also for a MOVE that took over
at a join (R10, R18, R138; log entry 34), or release it unused (R6). -/
def reportSegment (a : Axis) (r : AxisRecord) (e : Fin 24) (st : Status) (cause : Option FaultCause) (w : Word × Word)
    (s : State) : State :=
  if r.report || st != .ok then fill e (axisReport s a .segment st cause r.id 0 0 w.1 w.2) s else release e s

/-- Retire the active segment of an axis with the words given (R18). -/
def retireActive (a : Axis) (st : Status) (cause : Option FaultCause) (w : Segment → Word × Word) (s : State) : State :=
  match (s.axis a).active with
  | none => s
  | some g =>
    (reportSegment a g.record g.entry st cause (w g) s).modAxis a fun x =>
      { x with active := none, lastRetired := some g.record.id }

/-- Retire the record an axis holds in WAIT_SYNC without its release (R19). -/
def retireHeld (a : Axis) (st : Status) (cause : Option FaultCause) (s : State) : State :=
  match (s.axis a).held with
  | none => s
  | some h =>
    (reportSegment a h.record h.entry st cause (0, 0) s).modAxis a fun x =>
      { x with held := none, lastRetired := some h.record.id }

/-- Retire the active or held record, if any (R51, R59). -/
def retireCurrent (a : Axis) (st : Status) (cause : Option FaultCause) (s : State) : State :=
  retireHeld a st cause (retireActive a st cause Segment.words s)

/-! ### Halts -/

/-- The kind code of a stop request's record (Table 12-3). -/
def StopKind.code : StopKind → BitVec 5
  | .stop => 0x14
  | .abort => 0x15

/-- The tag and kind of a stop request's record. -/
def StopReq.id (q : StopReq) : RecId := { tag := q.tag, kind := q.kind.code }

/-- A halt completes the pending stop request HALTED, with flushed count 0 and the head at the halt (R59). -/
def failStopReq (a : Axis) (cause : FaultCause) (s : State) : State :=
  match (s.axis a).stopReq with
  | none => s
  | some q =>
    (fill q.entry (controlReport s .control .halted (some cause) q.id (some a) 0 (s.fetcher (axisRing a)).head 0
      q.superseded) s).modAxis a fun x => { x with stopReq := none }

/-- Entry to HALTED, in the order of R59, with the FAULT report of R60 for the record named by `id`; the outside mark is
set as R62 gives and the fetch in flight is cancelled (R127). -/
def haltCore (a : Axis) (cause : FaultCause) (id : RecId) (s : State) : State :=
  let s1 := failStopReq a cause (retireCurrent a .halted (some cause) (s.modAxis a AxisBlock.still))
  let n := (s1.axis a).staging.length
  let lt := (s1.axis a).lastTag
  let s2 := s1.modAxis a fun x =>
    { x with staging := [], cause := some cause, outside := x.outsideWindow, st := .halted }
  let s3 := s2.modFetcher (axisRing a) Fetcher.cancel
  fill (faultSlot a) (axisReport s3 a .fault .halted (some cause) id n (s3.fetcher (axisRing a)).head lt 0) s3

/-- A member that a break halts, with the tag and echo of its held record (R77). An arrived member holds a record. -/
def haltMember (a : Axis) (s : State) : State :=
  match (s.axis a).held with
  | none => s
  | some h => haltCore a .syncBroken h.record.id s

/-- A GATHERING group breaks: it becomes BROKEN with its arrived set empty and its count 0, and each of `others` halts with
SYNC_BROKEN, unless the device is QUIESCING (R76). -/
def breakGroup (g : GroupIx) (others : AxisSet) (s : State) : State :=
  let s1 := s.modGroup g fun x => { x with st := .broken, arrived := 0, count := 0 }
  if s.dev = .quiescing then s1 else inSomeOrder (setList others) haltMember s1

/-- An arrived member leaves WAIT_SYNC other than by release: its group, if GATHERING, breaks (R76). `g?` is the group the
axis waited on. -/
def depart (g? : Option GroupIx) (a : Axis) (s : State) : State :=
  match g? with
  | none => s
  | some g => if (s.group g).st = .gathering then breakGroup g (setErase (s.group g).arrived a) s else s

/-- An axis halts; where it waited on a group, its departure breaks the group (R59, R76). -/
def haltAxis (a : Axis) (cause : FaultCause) (id : RecId) (s : State) : State :=
  depart (s.axis a).waitsOn a (haltCore a cause id s)

/-- A halt whose FAULT report names the active or held record, else the last one retired (Table 3-2). -/
def haltCurrent (a : Axis) (cause : FaultCause) (s : State) : State := haltAxis a cause (s.axis a).faultId s

/-! ### The rest instant -/

/-- The status with which a stop request retires a segment (R51). -/
def StopKind.status : StopKind → Status
  | .stop => .stopped
  | .abort => .aborted

/-- The rest instant of a STOP_AXIS or ABORT_AXIS, in the order of R51; where the axis waited on a group, its departure
then breaks the group (R49, R76, log entry 16). -/
def restInstant (a : Axis) (q : StopReq) (s : State) : State :=
  let g? := (s.axis a).waitsOn
  let s1 := retireCurrent a q.kind.status none s
  let n := (s1.axis a).staging.length
  let lt := (s1.axis a).lastTag
  let s2 := (s1.modAxis a fun x => { x with staging := [] }).modFetcher (axisRing a) Fetcher.setHead
  let s3 := fill q.entry (controlReport s2 .control .ok none q.id (some a) n (s2.fetcher (axisRing a)).head lt
    q.superseded) s2
  depart g? a (s3.modAxis a fun x => { x with stopReq := none, st := .idle })

/-! ### Rates and periods -/

/-- A rate clamped to the creep rate and the maximum rate (R25). -/
def clampRate (c : AxisConfig) (v : Int) : Nat :=
  if v < c.creepRate then c.creepRate else if v > c.maxRate then c.maxRate else v.toNat

/-- The rate of a MOVE's first period, from the rate the axis held (R30). -/
def firstRate (c : AxisConfig) (held : Nat) (m : Move) : Nat :=
  m.startRate.getD (clampRate c (held + m.delta))

/-- The rate of the next period in RUN (R30, R31). -/
def AxisBlock.nextRate (x : AxisBlock) (m : Move) : Nat :=
  if x.firstMark then firstRate x.cfg x.rate m else clampRate x.cfg (x.rate + m.delta)

/-- When the n pulses of a period begin, in ticks from its start: k × P / n, taken down to a whole tick, each later by the
direction setup time where the mark is set (R107). -/
def AxisBlock.pulseTimes (x : AxisBlock) (n : Nat) : List Nat :=
  (List.range n).map fun k =>
    k * ticksOf x.cfg.updatePeriod / n + (if x.setupMark then ticksOf x.cfg.dirSetup else 0)

/-- Hand the period's step count to the Step Output Unit (R34, R107). -/
def AxisBlock.handOver (x : AxisBlock) (n : Nat) : AxisBlock :=
  { x with periodSteps := n, schedule := x.schedule ++ x.pulseTimes n }

/-- The computation that opens a period in RUN (R30 to R34). -/
def AxisBlock.openPeriod (m : Move) (x : AxisBlock) : AxisBlock :=
  let r := x.nextRate m
  let n := min ((x.frac + r) / 65536) x.remaining
  ({ x with rate := r, frac := (x.frac + r) % 65536, remaining := x.remaining - n, firstMark := false }).handOver n

/-- The computation at an expiry in RAMP_DOWN (R43, R44). At rate 0 no pulse is handed over and the fraction is 0. -/
def AxisBlock.rampPeriod (x : AxisBlock) : AxisBlock :=
  let r := x.rate - x.decel
  let n := (x.frac + r) / 65536
  if r = 0 then { x with rate := 0, frac := 0, periodSteps := 0 }
  else ({ x with rate := r, frac := (x.frac + r) % 65536, remaining := x.remaining - n }).handOver n

/-- The axis enters RAMP_DOWN with a deceleration (R42). -/
def AxisBlock.enterRamp (d : Nat) (x : AxisBlock) : AxisBlock := { x with st := .rampDown, decel := d }

/-! ### Activation from rest -/

/-- The limit an axis would move toward in a direction is active (R88, R91). -/
def limitActive (s : State) (a : Axis) (d : Dir) : Bool :=
  (s.axis a).cfg.limitsOn &&
    (match d with
      | .forward => (s.line (.limP a)).level
      | .reverse => (s.line (.limN a)).level) == (s.axis a).cfg.limitHigh

/-- The cause of a limit halt in a direction (R9, R89). -/
def limitCause : Dir → FaultCause
  | .forward => .limitPos
  | .reverse => .limitNeg

/-- The level of DIR for a direction (R106). -/
def dirLevel : Dir → Bool
  | .forward => false
  | .reverse => true

/-- The check of R9 that a MOVE started from rest fails, if any: the limit first, then the jump limit. -/
def startFault (s : State) (a : Axis) (m : Move) : Option FaultCause :=
  if limitActive s a m.dir then some (limitCause m.dir)
  else if (s.axis a).cfg.jumpLimit < firstRate (s.axis a).cfg 0 m then some .rateJump
  else none

/-- A MOVE that has passed its checks enters RUN and opens its first period (R9, R30, R108). -/
def AxisBlock.enterRun (m : Move) (x : AxisBlock) : AxisBlock :=
  ({ x with
      st := .run, remaining := m.steps, firstMark := true, rate := 0, frac := 0, dir := m.dir
      setupMark := x.dirPin != dirLevel m.dir, dirPin := dirLevel m.dir }).openPeriod m

/-- The active segment of a record just activated. -/
def newSegment (r : AxisRecord) (e : Fin 24) : Segment :=
  { record := r, entry := e, issued := 0, overrun := 0, expiries := 0 }

/-- Start a MOVE that has just become the active segment of an axis at rest: its checks, then RUN or a halt (R9, R73). -/
def startMove (a : Axis) (m : Move) (s : State) : State :=
  match startFault s a m with
  | some c => haltCore a c (s.axis a).faultId s
  | none => s.modAxis a (AxisBlock.enterRun m)

/-- The start rate of a MOVE, when present, lies between the creep rate and the maximum rate (R5). -/
def startRateOk (c : AxisConfig) (m : Move) : Bool :=
  match m.startRate with
  | none => true
  | some r => c.creepRate ≤ r && r ≤ c.maxRate

/-- The front record is one R8 deals with: marked invalid, or a MOVE whose start rate is out of range (R5, R8). -/
def frontInvalid (c : AxisConfig) (b : AxisBody) : Bool :=
  match b with
  | .invalid _ => true
  | .move m => ! startRateOk c m
  | _ => false

/-- The sync tag of a record. -/
def AxisBody.sync? : AxisBody → Option GroupIx
  | .move m => m.sync
  | .dwell _ g => g
  | _ => none

/-- Set latch `src` of an axis. -/
def AxisBlock.setLatch (src : Source) (v : Latch) (x : AxisBlock) : AxisBlock :=
  { x with latches := x.latches.set (sourceIx src) v }

/-- Latch `src` of an axis. -/
def AxisBlock.latch (x : AxisBlock) (src : Source) : Latch := x.latches[sourceIx src]

/-- The reference action of a WAIT (R14). -/
def AxisBlock.applyRef (w : Wait) (x : AxisBlock) : AxisBlock :=
  match w.ref with
  | none => x
  | some v => { x with cmdPos := v, encPos := v * BitVec.ofNat 32 x.cfg.countsPerStep, acc := 0 }

/-- A WAIT completes OK: it consumes the latch of its source, applies its reference action and retires, its words holding
the time of latching and the overrun flag consumed (R12 to R14). The axis is then IDLE. -/
def completeWait (a : Axis) (w : Wait) (s : State) : State :=
  let l := (s.axis a).latch w.src
  let s1 := s.modAxis a fun x => (x.setLatch w.src Latch.clear).applyRef w
  (retireActive a .ok none (fun _ => (l.time, BitVec.ofNat 32 (bnat l.overrun))) s1).modAxis a fun x =>
    { x with st := .idle }

/-- A SETPOS sets the positions it names (R16). -/
def AxisBlock.applySetpos (c e : Option Word) (x : AxisBlock) : AxisBlock :=
  let x1 := match c with
    | none => x
    | some v => { x with cmdPos := v }
  match e with
  | none => x1
  | some v => { x1 with encPos := v, acc := 0 }

/-! ### Arrival and release -/

/-- A held record becomes the active segment of its axis at a release (R72, R73). The axis's timer restarts. -/
def unhold (h : Held) (x : AxisBlock) : AxisBlock :=
  { x with held := none, active := some (newSegment h.record h.entry), timer := some (ticksOf x.cfg.updatePeriod) }

/-- Whether the held record of an axis passes the checks of its activation. -/
def releasePasses (s : State) (a : Axis) : Bool :=
  match (s.axis a).held with
  | some { record := { body := .move m, .. }, .. } => (startFault s a m).isNone
  | _ => true

/-- Release one member: its MOVE undergoes its checks, its DWELL begins (R73). -/
def releaseMember (a : Axis) (s : State) : State :=
  match (s.axis a).held with
  | none => s
  | some h =>
    let s1 := (s.modAxis a (unhold h)).setEntry h.entry (.reserved (.axisRecord a))
    match h.record.body with
    | .move m => startMove a m s1
    | _ => s1.modAxis a fun x => { x with st := .dwell }

/-- The group entry after its release (R72): ARMED again if reusable, FREE with the values of Table 4-2 if not. -/
def Group.released (x : Group) : Group :=
  if x.reusable then { x with st := .armed, arrived := 0, count := 0, gen := x.gen + 1 } else Group.reset

/-- The release of a group whose arrived set equals its member set (R72). The members whose records pass their checks
start first; between members that halt at the release any order may be taken (log entry 29). -/
def releaseGroup (g : GroupIx) (s : State) : State :=
  let ms := setList (s.group g).members
  let s1 := s.modGroup g Group.released
  let s2 := (ms.filter (releasePasses s1)).foldl (fun t a => releaseMember a t) s1
  inSomeOrder (ms.filter fun a => ! releasePasses s1 a) releaseMember s2

/-- The group entry after an arrival (R71). -/
def Group.arrive (a : Axis) (x : Group) : Group :=
  { x with st := .gathering, arrived := setInsert x.arrived a, count := if x.st = .armed then 0 else x.count }

/-- The front record `r`, RESERVED entry `e`, arrives at group `g`, and the group releases if its set is complete (R71). -/
def arrive (a : Axis) (g : GroupIx) (r : AxisRecord) (e : Fin 24) (s : State) : State :=
  let s1 := s.modAxis a fun x =>
    { x with staging := x.staging.tail, held := some { record := r, group := g, entry := e }, st := .waitSync }
  let s2 := s1.modGroup g (Group.arrive a)
  if (s2.group g).arrived = (s2.group g).members then releaseGroup g s2 else s2

/-- Judge a sync-tagged record at the front (Table 4-3). -/
def judgeTagged (a : Axis) (g : GroupIx) (r : AxisRecord) (s : State) : State :=
  if (s.group g).st = .free || ! setHas (s.group g).members a then haltAxis a .recordInvalid r.id s
  else if (s.group g).st = .broken then haltAxis a .syncBroken r.id s
  else
    match takeGeneral (.heldSync a) s with
    | none => s
    | some (e, s1) => arrive a g r e s1

/-! ### Going to OFF -/

/-- An axis goes to OFF at the end of a quiesce or of a device failure (R21, R22, R26, R106, R111). A pulse already begun
completes its width (R110, log entry 27). -/
def AxisBlock.toOff (x : AxisBlock) : AxisBlock :=
  if x.st = .off then x
  else
    { x with
      st := .off, staging := [], active := none, held := none, stopReq := none, cause := none, further := 0
      rate := 0, frac := 0, remaining := 0, firstMark := false, decel := x.cfg.stopDecel, periodSteps := 0
      timer := none, en := false, schedule := [], setupMark := false }

/-- Disarm the capture arm, its missed count kept (R120). -/
def AxisBlock.disarm (x : AxisBlock) : AxisBlock := { x with arm := { x.arm with armed := false } }

/-- Cancel the fetch in flight of every axis that goes to OFF (R127). -/
def cancelForOff (s : State) : State :=
  allAxes.foldl (fun t a => if (s.axis a).st = .off then t else t.modFetcher (axisRing a) Fetcher.cancel) s

/-- While the device is QUIESCING or FAILED, at every instant at which no axis is moving, every axis out of OFF goes to OFF
and the capture arms are disarmed (R21, R22, R120, R170). -/
def offIfAtRest (s : State) : State :=
  if (s.dev = .quiescing || s.dev = .failed) && allAxes.all (fun a => ! (s.axis a).st.moving) then
    (cancelForOff s).mapAxes fun x => x.toOff.disarm
  else s

end Sys2Proof.Machine
end

