-- ==== Sys2Proof/Machine/Control.lean ====
section
/-! DEFINITION. The Control Interpreter (R152 to R161) and the effect of each control record at its acceptance: configuration
(R157, R158, R87), enable and disable (R2, R3), stops (R47 to R58), CLEAR_FAULT (R63, R64), groups (R68, R69), capture arms
(R114, R115), READ_STATUS (R159), NOP (R160) and invalid records (R156). -/

namespace Sys2Proof.Machine
open Sys2Proof

/-! ### Completion -/

/-- The tag and kind of a control record. -/
def CtlRecord.id (c : CtlRecord) : RecId := { tag := c.tag, kind := c.body.kind }

/-- Fill the entry of a control record with its CONTROL report (R155). -/
def complete (c : CtlRecord) (e : Fin 24) (st : Status) (flushed ringHead : Nat) (wa wb : Word) (s : State) : State :=
  fill e (controlReport s .control st none c.id c.body.axis? flushed ringHead wa wb) s

/-- A completion that carries 0 in both words. -/
def completePlain (c : CtlRecord) (e : Fin 24) (st : Status) (s : State) : State := complete c e st 0 0 0 0 s

/-! ### CONFIGURE_AXIS and CONFIGURE_INPUTS -/

/-- The checks of Table 10-4, in order, with their numbers. -/
def configChecks (c : AxisConfig) : List (Nat × Bool) :=
  [(1, 10 ≤ c.updatePeriod && c.updatePeriod ≤ 2000),
    (2, 1 ≤ c.maxRate && c.maxRate ≤ 262144),
    (3, 1 ≤ c.creepRate && c.creepRate ≤ 262144),
    (4, 1 ≤ c.jumpLimit && c.jumpLimit ≤ 262144),
    (5, 1 ≤ c.stopDecel && c.stopDecel ≤ 262144),
    (6, c.countsPerStep ≤ 64),
    (7, 1 ≤ c.followWindow && c.followWindow ≤ 65535),
    (8, 1 ≤ c.pulseWidth && c.pulseWidth ≤ 8),
    (9, 1 ≤ c.dirSetup && c.dirSetup ≤ 50),
    (10, c.creepRate ≤ c.maxRate),
    (11, c.pulseWidth * 8 ≤ c.updatePeriod),
    (12, (c.dirSetup + c.pulseWidth) * 4 ≤ c.updatePeriod)]

/-- The number of the first check of Table 10-4 that fails. -/
def firstFailing (c : AxisConfig) : Option Nat :=
  ((configChecks c).find? fun p => ! p.2).map Prod.fst

/-- CONFIGURE_AXIS at its acceptance (R157, R158). -/
def acceptConfigureAxis (c : CtlRecord) (e : Fin 24) (a : Axis) (cfg : AxisConfig) (s : State) : State :=
  if (s.axis a).st = .off then
    match firstFailing cfg with
    | some n => complete c e .invalidConfig 0 0 (BitVec.ofNat 32 n) 0 s
    | none => completePlain c e .ok (s.modAxis a fun x => { x with cfg := cfg, decel := cfg.stopDecel })
  else completePlain c e .notAllowed s

/-- The slow sampling clock starts again where the interval has changed (R83, R87). -/
def restartSlowClock (cfg : InputsConfig) (s : State) : State :=
  if cfg.slowInterval = s.inputs.slowInterval then s
  else { s with slowClock := ticksOf cfg.slowInterval, slowDue := false }

/-- CONFIGURE_INPUTS at its acceptance (R87). -/
def acceptConfigureInputs (c : CtlRecord) (e : Fin 24) (cfg : InputsConfig) (s : State) : State :=
  if allAxes.all fun a => (s.axis a).st == .off then
    let s1 := restartSlowClock cfg s
    completePlain c e .ok { s1 with inputs := cfg, lines := mapEach (fun l => { l with run := 0 }) s1.lines }
  else completePlain c e .notAllowed s

/-! ### ENABLE_AXIS, DISABLE_AXIS and CLEAR_FAULT -/

/-- An axis enabled (R2, R98). -/
def AxisBlock.enabled (x : AxisBlock) : AxisBlock :=
  { x with
    st := .idle, latches := Vector.replicate 6 Latch.clear, acc := 0, quadErrs := 0
    timer := some (ticksOf x.cfg.updatePeriod), en := true, lastRetired := none }

/-- ENABLE_AXIS at its acceptance (R2). -/
def acceptEnableAxis (c : CtlRecord) (e : Fin 24) (a : Axis) (s : State) : State :=
  if (s.axis a).st = .off then completePlain c e .ok (s.modAxis a AxisBlock.enabled)
  else completePlain c e .notAllowed s

/-- An axis disabled: OFF, its queue flushed, its arm disarmed, its timer stopped, EN deasserted (R3). -/
def AxisBlock.disabled (x : AxisBlock) : AxisBlock :=
  { x.disarm with st := .off, staging := [], timer := none, en := false, cause := none, further := 0 }

/-- The FAULT report of an axis has been written: its fault slot is FREE (R63, R141). -/
def faultWritten (s : State) (a : Axis) : Bool := (s.entry (faultSlot a)).isFree

/-- DISABLE_AXIS takes the axis to OFF (R3). -/
def disableNow (c : CtlRecord) (e : Fin 24) (a : Axis) (s : State) : State :=
  let n := (s.axis a).staging.length
  let lt := (s.axis a).lastTag
  let k := (s.axis a).further
  let s1 := (s.modAxis a AxisBlock.disabled).modFetcher (axisRing a) Fetcher.setHead
  complete c e .ok n (s1.fetcher (axisRing a)).head lt (BitVec.ofNat 32 k) s1

/-- DISABLE_AXIS at its acceptance (R3). -/
def acceptDisableAxis (c : CtlRecord) (e : Fin 24) (a : Axis) (s : State) : State :=
  match (s.axis a).st with
  | .idle => disableNow c e a s
  | .halted => if faultWritten s a then disableNow c e a s else completePlain c e .reportPending s
  | _ => completePlain c e .notAllowed s

/-- An axis cleared (R64). -/
def AxisBlock.cleared (realign : Bool) (x : AxisBlock) : AxisBlock :=
  { x with st := .idle, cause := none, further := 0, acc := if realign then 0 else x.acc }

/-- CLEAR_FAULT at its acceptance (R63, R64). -/
def acceptClearFault (c : CtlRecord) (e : Fin 24) (a : Axis) (resume realign : Bool) (s : State) : State :=
  if (s.axis a).st = .halted then
    if faultWritten s a then
      let k := (s.axis a).further
      let s1 := s.modAxis a (AxisBlock.cleared realign)
      let s2 := if resume then s1 else s1.modFetcher (axisRing a) Fetcher.setHead
      complete c e .ok 0 (s2.fetcher (axisRing a)).head (BitVec.ofNat 32 k) 0 s2
    else completePlain c e .reportPending s
  else completePlain c e .notAllowed s

/-! ### STOP_AXIS and ABORT_AXIS -/

/-- A STOP_AXIS or ABORT_AXIS becomes the pending request of its axis, its entry RESERVED to it (R46, R47). -/
def pendStop (a : Axis) (q : StopReq) (s : State) : State :=
  (s.modAxis a fun x => { x with stopReq := some q }).setEntry q.entry (.reserved (.stopRequest a))

/-- The tag a new request carries as superseded: that of the pending request, or 0 (R46, R56, R57). -/
def supersededTag (x : AxisBlock) : Word := (x.stopReq.map StopReq.tag).getD 0

/-- STOP_AXIS at its acceptance (R48, R49, R56, R58). -/
def acceptStopAxis (c : CtlRecord) (e : Fin 24) (a : Axis) (decel : Option Nat) (s : State) : State :=
  let x := s.axis a
  let q : StopReq := { kind := .stop, tag := c.tag, entry := e, superseded := supersededTag x }
  match x.st with
  | .off => completePlain c e .notAllowed s
  | .halted => completePlain c e .notAllowed s
  | .run => (pendStop a q s).modAxis a (AxisBlock.enterRamp (decel.getD x.cfg.stopDecel))
  | .rampDown => (pendStop a q s).modAxis a (AxisBlock.enterRamp (decel.getD x.cfg.stopDecel))
  | _ => restInstant a q s

/-- ABORT_AXIS at its acceptance (R49, R50, R57). -/
def acceptAbortAxis (c : CtlRecord) (e : Fin 24) (a : Axis) (s : State) : State :=
  let x := s.axis a
  let q : StopReq := { kind := .abort, tag := c.tag, entry := e, superseded := supersededTag x }
  match x.st with
  | .off => completePlain c e .notAllowed s
  | .halted => completePlain c e .notAllowed s
  | _ => restInstant a q (s.modAxis a AxisBlock.still)

/-! ### Groups -/

/-- A group as DEFINE_GROUP sets it (R68). -/
def definedGroup (m : AxisSet) (reusable : Bool) (timeout : Option Nat) : Group where
  st := .armed
  members := m
  arrived := 0
  reusable := reusable
  timeout := timeout
  count := 0
  gen := 0

/-- DEFINE_GROUP at its acceptance (R68). -/
def acceptDefineGroup (c : CtlRecord) (e : Fin 24) (g : GroupIx) (m : AxisSet) (reusable : Bool) (timeout : Option Nat)
    (s : State) : State :=
  let x := s.group g
  if x.st = .gathering then complete c e .busy 0 0 (groupWordA x.st 0) (x.gen.setWidth 32) s
  else
    complete c e .ok 0 0 (groupWordA x.st 0) (x.gen.setWidth 32) (s.modGroup g fun _ => definedGroup m reusable timeout)

/-- CLEAR_GROUP at its acceptance: a GATHERING group breaks first, with no departing member (R69, R76). -/
def acceptClearGroup (c : CtlRecord) (e : Fin 24) (g : GroupIx) (s : State) : State :=
  let x := s.group g
  let n := if x.st = .gathering then setSize x.arrived else 0
  let s1 := if x.st = .gathering then breakGroup g x.arrived s else s
  complete c e .ok 0 0 (groupWordA x.st n) (x.gen.setWidth 32) (s1.modGroup g fun _ => Group.reset)

/-! ### Capture arms -/

/-- SET_CAPTURE with action ARM at its acceptance (R114). -/
def acceptCaptureArm (c : CtlRecord) (e : Fin 24) (a : Axis) (src : Source) (count : Option Nat) (s : State) : State :=
  let m := (s.axis a).arm
  if (s.axis a).st = .off then complete c e .notAllowed 0 0 (BitVec.ofNat 32 m.missed) (captureWord m) s
  else
    complete c e .ok 0 0 (BitVec.ofNat 32 m.missed) (captureWord m) (s.modAxis a fun x =>
      { x with arm := { armed := true, source := src, remaining := count, tag := c.tag, missed := 0 } })

/-- SET_CAPTURE with action DISARM at its acceptance (R115). -/
def acceptCaptureDisarm (c : CtlRecord) (e : Fin 24) (a : Axis) (s : State) : State :=
  let m := (s.axis a).arm
  complete c e .ok 0 0 (BitVec.ofNat 32 m.missed) (captureWord m) (s.modAxis a fun x =>
    { x with arm := { x.arm with armed := false, missed := 0 } })

/-! ### READ_STATUS, NOP and invalid records -/

/-- READ_STATUS at its acceptance (R159). -/
def acceptReadStatus (c : CtlRecord) (e : Fin 24) (a : Axis) (s : State) : State :=
  let x := s.axis a
  fill e (controlReport s .status .ok x.cause c.id (some a) x.staging.length (s.fetcher (axisRing a)).head
    (statusWordA x) (statusWordB s a)) s

/-- NOP at its acceptance (R160). -/
def acceptNop (c : CtlRecord) (e : Fin 24) (s : State) : State := completePlain c e .ok s

/-- A record marked invalid at its acceptance (R156). Where its kind code is that of READ_STATUS the report is a STATUS report
(R155) with the fault cause of the axis it names (R175), and with none of the other status items (log entry 32). -/
def acceptInvalid (c : CtlRecord) (e : Fin 24) (s : State) : State :=
  if c.body.kind = 0x1A then
    fill e (controlReport s .status .invalid (c.body.axis?.bind fun a => (s.axis a).cause) c.id c.body.axis? 0 0 0 0) s
  else completePlain c e .invalid s

/-! ### The interpreter -/

/-- Hand the effect of an accepted record to its owner; `e` is the entry its report will use (R155). -/
def accept (c : CtlRecord) (e : Fin 24) (s : State) : State :=
  match c.body with
  | .configureAxis a cfg => acceptConfigureAxis c e a cfg s
  | .configureInputs cfg => acceptConfigureInputs c e cfg s
  | .enableAxis a => acceptEnableAxis c e a s
  | .disableAxis a => acceptDisableAxis c e a s
  | .stopAxis a d => acceptStopAxis c e a d s
  | .abortAxis a => acceptAbortAxis c e a s
  | .clearFault a r l => acceptClearFault c e a r l s
  | .defineGroup g m r t => acceptDefineGroup c e g m r t s
  | .clearGroup g => acceptClearGroup c e g s
  | .setCaptureArm a src n => acceptCaptureArm c e a src n s
  | .setCaptureDisarm a => acceptCaptureDisarm c e a s
  | .readStatus a => acceptReadStatus c e a s
  | .nop => acceptNop c e s
  | .invalid _ _ => acceptInvalid c e s

/-- Which entry a control record uses (R154): none can be had, the one its axis's pending request holds, or one it takes. -/
inductive EntryChoice where
  | cannot
  | keeps (e : Fin 24)
  | takes (e : Fin 24)
deriving DecidableEq, Repr

/-- A general entry for a record, if one is FREE. -/
def generalChoice (s : State) : EntryChoice :=
  match s.freeGeneral with
  | none => .cannot
  | some e => .takes e

/-- The axis's stop slot when it is FREE, a general entry otherwise (R47). -/
def stopChoice (a : Axis) (s : State) : EntryChoice :=
  if (s.entry (stopSlot a)).isFree then .takes (stopSlot a) else generalChoice s

/-- The entry of a valid STOP_AXIS or ABORT_AXIS: a pending request's, taken over, or as R47 gives (R154). -/
def requestChoice (a : Axis) (s : State) : EntryChoice :=
  match (s.axis a).stopReq with
  | some q => .keeps q.entry
  | none => stopChoice a s

/-- Whether a kind code is that of STOP_AXIS or ABORT_AXIS. -/
def isStopKind (k : BitVec 5) : Bool := k == 0x14 || k == 0x15

/-- The entry a control record needs (R154, R156, R174). -/
def entryChoice (b : CtlBody) (s : State) : EntryChoice :=
  match b with
  | .stopAxis a _ => requestChoice a s
  | .abortAxis a => requestChoice a s
  | .invalid k i =>
    match CtlBody.axis? (.invalid k i) with
    | some a => if isStopKind k then stopChoice a s else generalChoice s
    | none => generalChoice s
  | _ => generalChoice s

/-- Judge a record in hand: accept it where its entry can be had, hold it where it cannot (R153). -/
def judgeRecord (c : CtlRecord) (s : State) : State :=
  match entryChoice c.body s with
  | .cannot => { s with interp := .holding c }
  | .keeps e => accept c e { s with interp := .waiting }
  | .takes e => accept c e ({ s with interp := .waiting }.setEntry e (.reserved .control))

/-- The entry a record can have is a general one, which another reserver of the instant may take first (R154). -/
def EntryChoice.isGeneral : EntryChoice → Bool
  | .takes e => e.val < 16
  | _ => false

/-- A record in HOLDING looks again: with the entry it has taken inside this command, or with one it can now have (R153,
R154). A FREE general entry it takes now, or leaves for the other reservers of this instant: a free value decides (R135, log
entry 7). Before time passes it looks in any case (`lookNow`). -/
def lookAgain (s : State) : State :=
  match s.interp with
  | .waiting => s
  | .holding c =>
    match s.claim with
    | some e => accept c e { s with interp := .waiting, claim := none }
    | none =>
      if (entryChoice c.body s).isGeneral then
        if Config.freeClaim s.freeCount then judgeRecord c { s with freeCount := s.freeCount + 1 }
        else { s with freeCount := s.freeCount + 1 }
      else judgeRecord c s

/-- A record in HOLDING that has taken the entry just released is accepted at that instant, before the work that goes on there, so
that an arrival, a join or a capture finds what it leaves (R79, R119, R154). `busy` is the axis whose expiry is under way: a record
that names it acts after the whole of the expiry's work (R54, R55), in `settle` (log entry 7). -/
def acceptAtRelease (busy : Option Axis) (s : State) : State :=
  match s.interp, s.claim with
  | .holding c, some e =>
    if busy.isSome && c.body.axis? == busy then s else accept c e { s with interp := .waiting, claim := none }
  | _, _ => s

/-- What follows at the same instant from the work of a command: axes at rest go to OFF under a quiesce or failure, a held
record looks again, though it may leave a FREE general entry to other reservers (log entry 7), and what it did may bring axes to
OFF once more (R21, R22, R153, R170, log entry 25). -/
def settle (s : State) : State := offIfAtRest (lookAgain (offIfAtRest s))

/-- A record in HOLDING that can have its entry: no other reserver of the instant has taken it (R153). -/
def State.heldCan (s : State) : Bool :=
  match s.interp with
  | .waiting => false
  | .holding c => entryChoice c.body s != .cannot

/-- A record in HOLDING is accepted with the entry it can have, and axes at rest go to OFF (R21, R153). -/
def lookNow (s : State) : State :=
  match s.interp with
  | .waiting => s
  | .holding c => offIfAtRest (judgeRecord c s)

/-- The interpreter can be handed a record (R153, R161). -/
def State.takesControl (s : State) : Bool :=
  (s.dev = .online || s.dev = .quiescing) && s.interp = .waiting

/-- A control-record command: the record is delivered to the interpreter where it can be handed one (R153), its fields
checked as at a fetch (R128, log entries 6 and 22). -/
def deliverCommand (tag : Word) (b : CtlBody) (s : State) : State :=
  if s.takesControl then settle (judgeRecord { tag := tag, body := b.checked } s) else s

/-! ### The control-record commands -/

/-- CONFIGURE_AXIS (R157, R158). -/
def execConfigureAxis (a : Axis) (tag : Word) (cfg : AxisConfig) (s : State) : Host.Outcome State Fault Refusal :=
  .next (deliverCommand tag (.configureAxis a cfg) s)

/-- CONFIGURE_INPUTS (R87). -/
def execConfigureInputs (tag : Word) (cfg : InputsConfig) (s : State) : Host.Outcome State Fault Refusal :=
  .next (deliverCommand tag (.configureInputs cfg) s)

/-- ENABLE_AXIS (R2). -/
def execEnableAxis (a : Axis) (tag : Word) (s : State) : Host.Outcome State Fault Refusal :=
  .next (deliverCommand tag (.enableAxis a) s)

/-- DISABLE_AXIS (R3). -/
def execDisableAxis (a : Axis) (tag : Word) (s : State) : Host.Outcome State Fault Refusal :=
  .next (deliverCommand tag (.disableAxis a) s)

/-- STOP_AXIS (R48, R49, R56, R58). -/
def execStopAxis (a : Axis) (tag : Word) (decel : Option Nat) (s : State) : Host.Outcome State Fault Refusal :=
  .next (deliverCommand tag (.stopAxis a decel) s)

/-- ABORT_AXIS (R49, R50, R57). -/
def execAbortAxis (a : Axis) (tag : Word) (s : State) : Host.Outcome State Fault Refusal :=
  .next (deliverCommand tag (.abortAxis a) s)

/-- CLEAR_FAULT (R63, R64). -/
def execClearFault (a : Axis) (tag : Word) (resume realign : Bool) (s : State) : Host.Outcome State Fault Refusal :=
  .next (deliverCommand tag (.clearFault a resume realign) s)

/-- DEFINE_GROUP (R68). -/
def execDefineGroup (g : GroupIx) (tag : Word) (members : AxisSet) (reusable : Bool) (timeout : Option Nat) (s : State) :
    Host.Outcome State Fault Refusal :=
  .next (deliverCommand tag (.defineGroup g members reusable timeout) s)

/-- CLEAR_GROUP (R69). -/
def execClearGroup (g : GroupIx) (tag : Word) (s : State) : Host.Outcome State Fault Refusal :=
  .next (deliverCommand tag (.clearGroup g) s)

/-- SET_CAPTURE with action ARM (R114). -/
def execSetCaptureArm (a : Axis) (tag : Word) (src : Source) (count : Option Nat) (s : State) :
    Host.Outcome State Fault Refusal :=
  .next (deliverCommand tag (.setCaptureArm a src count) s)

/-- SET_CAPTURE with action DISARM (R115). -/
def execSetCaptureDisarm (a : Axis) (tag : Word) (s : State) : Host.Outcome State Fault Refusal :=
  .next (deliverCommand tag (.setCaptureDisarm a) s)

/-- READ_STATUS (R159). -/
def execReadStatus (a : Axis) (tag : Word) (s : State) : Host.Outcome State Fault Refusal :=
  .next (deliverCommand tag (.readStatus a) s)

/-- NOP (R160). -/
def execNop (tag : Word) (s : State) : Host.Outcome State Fault Refusal :=
  .next (deliverCommand tag .nop s)

/-- A control record that failed its check at fetch (R156). -/
def execInvalidControlRecord (kind : BitVec 5) (index : BitVec 8) (tag : Word) (s : State) :
    Host.Outcome State Fault Refusal :=
  .next (deliverCommand tag (.invalid kind index) s)

end Sys2Proof.Machine
end

