-- ==== Sys2Proof/Machine/Expiry.lean ====
section
/-! DEFINITION. The work of an expiry by axis state: consideration of the staging queue and activation from rest (R7 to R17), the
ends of a MOVE and the CONTINUE join (R29, R36 to R40), the ramp (R43, R44), the counts of a DWELL and of a WAIT (R11, R15). -/

namespace Sys2Proof.Machine
open Sys2Proof

/-! ### Consideration of the staging queue -/

/-- Remove the front record and make it the active segment with entry `e` (R7). -/
def activate (a : Axis) (r : AxisRecord) (e : Fin 24) (s : State) : State :=
  s.modAxis a fun x => { x with staging := x.staging.tail, active := some (newSegment r e) }

/-- What an activated record does at its activation (R9, R11, R12, R16, R17). The answer is set where the record has
completed and the axis is again IDLE. -/
def runActivated (a : Axis) (r : AxisRecord) (s : State) : State × Bool :=
  match r.body with
  | .move m => (startMove a m s, false)
  | .dwell _ _ => (s.modAxis a fun x => { x with st := .dwell }, false)
  | .wait w =>
    if w.policy = .latched && ((s.axis a).latch w.src).flag then (completeWait a w s, true)
    else
      (s.modAxis a fun x =>
        { (if w.policy = .fresh then x.setLatch w.src Latch.clear else x) with st := .waitEvent }, false)
  | .setpos c e => (retireActive a .ok none Segment.words (s.modAxis a (AxisBlock.applySetpos c e)), true)
  | .mark => (retireActive a .ok none Segment.words s, true)
  | .invalid _ => (s, false)

/-- Consider the staging queue of an IDLE axis, at most `n` records (R7). No record is activated and no arrival is made
unless the device is ONLINE (R21, R22). Where a record that has completed leaves its entry unused, a control record in hand may be
accepted with it before the next one is considered (R79, R154, log entry 7). -/
def considerQueue (a : Axis) : Nat → State → State
  | 0, s => s
  | n + 1, s =>
    if s.dev = .online && (s.axis a).st = .idle then
      match (s.axis a).staging with
      | [] => s
      | r :: _ =>
        if frontInvalid (s.axis a).cfg r.body then haltAxis a .recordInvalid r.id s
        else
          match r.body.sync? with
          | some g => judgeTagged a g r s
          | none =>
            match takeGeneral (.axisRecord a) s with
            | none => s
            | some (e, s1) =>
              let p := runActivated a r (activate a r e s1)
              if p.2 then considerQueue a n (acceptAtRelease (some a) p.1) else p.1
    else s

/-- The axis becomes IDLE and considers its queue at the same expiry (R7). -/
def becomeIdle (a : Axis) (s : State) : State :=
  let s1 := s.modAxis a fun x => { x with st := .idle }
  considerQueue a (s1.axis a).staging.length s1

/-! ### The end of a MOVE -/

/-- The MARKs at the front of the queue are activated and retired at a join (R37). The answer is set where a MARK found no
entry. -/
def passMarks (a : Axis) : Nat → State → State × Bool
  | 0, s => (s, false)
  | n + 1, s =>
    match (s.axis a).staging with
    | [] => (s, false)
    | r :: _ =>
      match r.body with
      | .mark =>
        match takeGeneral (.axisRecord a) s with
        | none => (s, true)
        | some (e, s1) => passMarks a n (retireActive a .ok none Segment.words (activate a r e s1))
      | _ => (s, false)

/-- A MOVE that takes over at a join: RUN goes on with the fraction carried over (R39). -/
def AxisBlock.joinRun (m : Move) (x : AxisBlock) : AxisBlock :=
  ({ x with remaining := m.steps, firstMark := true }).openPeriod m

/-- The difference of two rates, without sign. -/
def rateGap (x y : Nat) : Nat := (x - y) + (y - x)

/-- A record at a join fails condition 3 of Table 2-4 unless it is an untagged MOVE in the direction of the ended one. -/
def joinSequence (d : Dir) (b : AxisBody) : Bool :=
  match b with
  | .move m => m.sync.isSome || m.dir != d
  | _ => true

/-- A MOVE with a start rate that lies further from the ended MOVE's last rate than the jump limit (Table 2-4, condition 5). -/
def joinJump (x : AxisBlock) (m : Move) : Bool :=
  match m.startRate with
  | none => false
  | some r => x.cfg.jumpLimit < rateGap r x.rate

/-- Judge the join behind the MARKs, in the order of Table 2-4 (R38 to R40). `ended` names the MOVE that ended. -/
def judgeJoin (a : Axis) (ended : RecId) (s : State) : State :=
  match (s.axis a).staging with
  | [] => haltAxis a .underrun ended s
  | r :: _ =>
    if frontInvalid (s.axis a).cfg r.body then haltAxis a .recordInvalid r.id s
    else if joinSequence (s.axis a).dir r.body then haltAxis a .sequence r.id s
    else
      match r.body with
      | .move m =>
        match takeGeneral (.axisRecord a) s with
        | none => haltAxis a .underrun r.id s
        | some (e, s1) =>
          if joinJump (s.axis a) m then haltAxis a .rateJump r.id s
          else (activate a r e s1).modAxis a (AxisBlock.joinRun m)
      | _ => haltAxis a .sequence r.id s

/-- The CONTINUE join (R37, R38). A MARK that finds no entry fails the join with UNDERRUN. -/
def continueJoin (a : Axis) (ended : RecId) (s : State) : State :=
  let p := passMarks a (s.axis a).staging.length s
  if p.2 then haltAxis a .underrun (((p.1.axis a).staging.head?.map AxisRecord.id).getD ended) p.1
  else judgeJoin a ended p.1

/-- The exit REST of a MOVE that has ended, named by `id` (R36). -/
def restExit (a : Axis) (id : RecId) (s : State) : State :=
  let s1 := s.modAxis a fun x => { x with rate := 0, frac := 0, periodSteps := 0 }
  if (s.axis a).cfg.jumpLimit < (s.axis a).rate then haltAxis a .rateJump id s1 else becomeIdle a s1

/-- The active record of an axis retires OK at an expiry. A control record in hand that takes the entry it leaves unused is
accepted there; the axis, in the state it was in, goes on as `next` says (R79, R154, log entry 7). -/
def retireThen (a : Axis) (w : Segment → Word × Word) (next : State → State) (s : State) : State :=
  let s1 := acceptAtRelease (some a) (retireActive a .ok none w s)
  if (s1.axis a).st = (s.axis a).st then next s1 else s1

/-- A MOVE whose remaining count is 0 at an expiry ends: it retires OK with its step count, and its exit decides (R29, R36, R37,
log entry 17). A join is one event, whose fills join the queue with nothing between them (R137): a control record in hand that takes an
entry the MOVE or a MARK leaves unused holds it RESERVED through the join and acts after it (R154, log entry 7). -/
def endMove (a : Axis) (g : Segment) (m : Move) (s : State) : State :=
  let words : Segment → Word × Word := fun _ => (BitVec.ofNat 32 m.steps, 0)
  match m.exit with
  | .rest => retireThen a words (restExit a g.record.id) s
  | .continue => acceptAtRelease (some a) (continueJoin a g.record.id (retireActive a .ok none words s))

/-- The work of an expiry in RUN (R29). -/
def runWork (a : Axis) (s : State) : State :=
  match (s.axis a).active with
  | none => s
  | some g =>
    match g.record.body with
    | .move m => if (s.axis a).remaining = 0 then endMove a g m s else s.modAxis a (AxisBlock.openPeriod m)
    | _ => s

/-- The end of a ramp (R44): the rest instant of a pending request, the quiesce's retirement (R21), or rest under a device
failure, where the record is dropped (R22, log entry 15). -/
def rampRest (a : Axis) (s : State) : State :=
  if s.dev = .failed then s.modAxis a fun x => { x with st := .idle, active := none }
  else
    match (s.axis a).stopReq with
    | some q => restInstant a q s
    | none => (retireCurrent a .stopped none s).modAxis a fun x => { x with st := .idle }

/-- The work of an expiry in RAMP_DOWN (R43, R44). -/
def rampWork (a : Axis) (s : State) : State :=
  let s1 := s.modAxis a AxisBlock.rampPeriod
  if (s1.axis a).rate = 0 then rampRest a s1 else s1

/-- Count an expiry in the active segment (R11, R15). -/
def AxisBlock.countExpiry (x : AxisBlock) : AxisBlock :=
  { x with active := x.active.map fun g => { g with expiries := g.expiries + 1 } }

/-- The work of an expiry in DWELL (R11). -/
def dwellWork (a : Axis) (s : State) : State :=
  let s1 := s.modAxis a AxisBlock.countExpiry
  match (s1.axis a).active with
  | some { record := { body := .dwell d _, .. }, expiries := n, .. } =>
    if d ≤ n then retireThen a Segment.words (becomeIdle a) s1 else s1
  | _ => s1

/-- The work of an expiry in WAIT_EVENT (R15). -/
def waitWork (a : Axis) (s : State) : State :=
  let s1 := s.modAxis a AxisBlock.countExpiry
  match (s1.axis a).active with
  | some { record := { body := .wait { timeout := some t, .. }, .. }, expiries := n, .. } =>
    if t ≤ n then becomeIdle a (retireActive a .timeout none Segment.words s1) else s1
  | _ => s1

end Sys2Proof.Machine
end

