-- ==== Sys2Proof/Machine/Device.lean ====
section
/-! DEFINITION. Device State Control: the two resets (R166), GO and the judgement of the setup block (R167, R168), HALT and the
quiesce (R169, R170), and device failure (R171); and the commands HARDWARE_RESET, SOFT_RESET, GO, HALT and QUIESCE_END. -/

namespace Sys2Proof.Machine
open Sys2Proof

/-! ### Resets -/

/-- An axis after a reset: the values of Chapter 1, 2 and 6, but that a pulse already begun completes its width (R23, R106). -/
def AxisBlock.afterReset (x : AxisBlock) : AxisBlock := { AxisBlock.reset with pulse := x.pulse }

/-- What a hardware and a soft reset have in common (R166): every block takes its reset values. The queue, the raw pins
and the free values' counter are not the block's and stay. -/
def resetBlocks (cause : ResetCause) (s : State) : State :=
  { State.reset with
    pending := s.pending, resetCause := cause, axes := mapEach AxisBlock.afterReset s.axes, pins := s.pins
    freeCount := s.freeCount }

/-- The soft reset keeps SUA_LO, SUA_HI and IMOD (R166). -/
def softResetNow (s : State) : State :=
  { resetBlocks .soft s with suaLo := s.suaLo, suaHi := s.suaHi, imod := s.imod }

/-! ### Starting -/

/-- A GO taken in OFFLINE (R167). In every other state it is ignored (R163). -/
def goNow (s : State) : State :=
  if s.dev = .offline then
    let addr : Addr := s.suaHi ++ s.suaLo
    if addr.toNat % 64 = 0 then
      { s with dev := .starting, setupCode := .none, setupAddr := addr, setupRead := some { next := 0, chunks := [] } }
    else { s with setupCode := .badAlign, setupAddr := addr, setupFlag := true }
  else s

/-- A setup read fails, or the block does: back to OFFLINE with a setup code and the SETUP flag, nothing kept (R167, R168). -/
def setupFailed (c : SetupCode) (s : State) : State :=
  { s with dev := .offline, setupCode := c, setupFlag := true, setupRead := none }

/-- A fetcher at entry to ONLINE (R121). -/
def onlineFetcher (chunks : List Block32) (r : Fin 5) : Fetcher where
  base := setupBase chunks r.castSucc
  size := setupSize chunks r.castSucc
  head := 0
  tail := 0
  mirrorPending := true
  inFlight := none

/-- Entry to ONLINE (R121, R139, R147, R152, R168, R173). -/
def enterOnline (chunks : List Block32) (s : State) : State :=
  { s with
    dev := .online, setupRead := none
    fetchers := Vector.ofFn (onlineFetcher chunks)
    writer := { base := setupBase chunks 5, size := setupSize chunks 5, tail := 0, hostHead := 0, seq := 0, inFlight := none }
    writeCount := 0, holdoff := none, interp := .waiting, timeRunning := true, time := 0, subTick := 0 }

/-- The six rings. -/
def allRings : List (Fin 6) := [0, 1, 2, 3, 4, 5]

/-- The judgement of the block after read 3 (R168). -/
def judgeBlock (chunks : List Block32) (s : State) : State :=
  match judgeSetup chunks allRings with
  | .none => enterOnline chunks s
  | c => setupFailed c s

/-! ### Quiescing -/

/-- The axis states whose records retire at the start of a quiesce. -/
def AxisState.waiting : AxisState → Bool
  | .dwell => true
  | .waitEvent => true
  | .waitSync => true
  | _ => false

/-- The retirement of a record at the start of a quiesce: the axis becomes IDLE, and a group it waited on breaks without
halting anyone (R21, R80). -/
def quiesceAxis (a : Axis) (s : State) : State :=
  if (s.axis a).st.waiting then
    depart (s.axis a).waitsOn a ((retireCurrent a .stopped none s).modAxis a fun x => { x with st := .idle })
  else s

/-- A HALT taken in ONLINE (R21, R169). In every other state it is ignored (R163). -/
def haltNow (s : State) : State :=
  if s.dev = .online then
    let s1 := { s with dev := .quiescing }
    let s2 := s1.mapAxes fun x => if x.st = .run then x.enterRamp x.cfg.stopDecel else x
    settle (inSomeOrder (allAxes.filter fun a => (s2.axis a).st.waiting) quiesceAxis s2)
  else s

/-- The conditions under which the device leaves QUIESCING (R170). -/
def State.quiesceDone (s : State) : Bool :=
  s.dev = .quiescing && allAxes.all (fun a => (s.axis a).st == .off) && s.bufferEmpty && s.writer.inFlight.isNone
    && s.interp = .waiting && s.fetchers.toList.all (fun f => f.inFlight.isNone && ! f.mirrorPending) && s.port.isNone

/-- The end of a quiesce: OFFLINE, every group FREE and every latch clear (R80, R96, R170). -/
def quiesceEndNow (s : State) : State :=
  if s.quiesceDone then
    { s with
      dev := .offline, groups := Vector.replicate 8 Group.reset
      axes := mapEach (fun x => { x with latches := Vector.replicate 6 Latch.clear }) s.axes }
  else s

/-! ### Failure -/

/-- An axis at the device's entry to FAILED (R22, R42, R120). -/
def AxisBlock.failing (x : AxisBlock) : AxisBlock :=
  ({ (if x.st.moving then x.enterRamp x.cfg.stopDecel else x) with stopReq := none }).disarm

/-- Entry to FAILED (R171): the cause and FAIL are set, the buffer is discarded, the record in hand dropped, the fetches
cancelled, the arms disarmed, the groups freed, the axes ramp, and where none moves all go to OFF (R22). -/
def deviceFail (f : Failure) (s : State) : State :=
  if s.dev = .online || s.dev = .quiescing then
    let s1 := discardBuffer { s with dev := .failed, failure := some f, failFlag := true, interp := .waiting }
    offIfAtRest
      { s1 with
        fetchers := mapEach Fetcher.cancel s1.fetchers, groups := Vector.replicate 8 Group.reset
        axes := mapEach AxisBlock.failing s1.axes }
  else s

/-! ### Commands -/

/-- HARDWARE_RESET: a power-on reset gives POWER, also with the pin asserted; the pin alone gives PIN (R164, R166). -/
def execHardwareReset (powerOn : Bool) (s : State) : Host.Outcome State Fault Refusal :=
  .next (resetBlocks (if powerOn then .power else .pin) s)

/-- SOFT_RESET: a CTL write with the SOFT_RESET position 1 (R163, R166). -/
def execSoftReset (s : State) : Host.Outcome State Fault Refusal := .next (softResetNow s)

/-- GO: a CTL write with the GO position 1 (R163, R167). -/
def execGo (s : State) : Host.Outcome State Fault Refusal := .next (goNow s)

/-- HALT: a CTL write with the HALT position 1 (R163, R169). -/
def execHalt (s : State) : Host.Outcome State Fault Refusal := .next (haltNow s)

/-- QUIESCE_END (R170). While its conditions do not all hold nothing happens. -/
def execQuiesceEnd (s : State) : Host.Outcome State Fault Refusal := .next (quiesceEndNow s)

end Sys2Proof.Machine
end

