-- ==== Sys2Proof/Machine/Registers.lean ====
section
/-! DEFINITION. Host register writes: TAILPOST (R122), CHEAD (R143), ICAUSE (R149), IMOD (R150), STS (R164), CTL (R163), SUA_LO and
SUA_HI (R162); and the Interrupt Moderator's count of a report write and its holdoff timer (R148). -/

namespace Sys2Proof.Machine
open Sys2Proof

/-! ### The writes -/

/-- A write to TAILPOST (R122, R175). -/
def tailpostNow (ring : BitVec 3) (tail : BitVec 16) (s : State) : State :=
  if h : ring.toNat < 5 then
    if s.dev = .online && tail.toNat < (s.fetcher ⟨ring.toNat, h⟩).size then
      s.modFetcher ⟨ring.toNat, h⟩ fun f => { f with tail := tail.toNat }
    else { s with postErr := true }
  else { s with postErr := true }

/-- The new head of a CHEAD write lies between the host head and the tail, counted forward (R143). -/
def cheadOk (w : Writer) (h : Nat) : Bool :=
  h < w.size && ringDist w.hostHead h w.size ≤ ringDist w.hostHead w.tail w.size

/-- A write to CHEAD (R143). -/
def cheadNow (head : BitVec 16) (s : State) : State :=
  if (s.dev = .online || s.dev = .quiescing) && cheadOk s.writer head.toNat then
    { s with writer := { s.writer with hostHead := head.toNat } }
  else { s with headErr := true }

/-- A write to ICAUSE: 1s clear the flags named, and CPL also zeroes the write count and stops the timer (R149). -/
def icauseNow (cpl fail setup : Bool) (s : State) : State :=
  { s with
    cplFlag := s.cplFlag && ! cpl, failFlag := s.failFlag && ! fail, setupFlag := s.setupFlag && ! setup
    writeCount := if cpl then 0 else s.writeCount
    holdoff := if cpl then none else s.holdoff }

/-- The settings an IMOD write stores: a threshold of 0 is stored as 1 (R162). -/
def imodOf (cplEn failEn setupEn : Bool) (threshold : BitVec 8) (holdoff : BitVec 16) : Imod where
  cplEn := cplEn
  failEn := failEn
  setupEn := setupEn
  threshold := if threshold = 0 then 1 else threshold
  holdoff := holdoff

/-- What a new holdoff does to the timer (R150): restart or stop it where it runs, start it where it is stopped with the
count above 0 and CPL clear. -/
def newHoldoff (h : BitVec 16) (running : Bool) (count : Nat) (cpl : Bool) : Option Nat :=
  if h = 0 then none
  else if running || (0 < count && ! cpl) then some (ticksOf h.toNat)
  else none

/-- A write to IMOD (R150, log entry 20). -/
def imodNow (m : Imod) (s : State) : State :=
  let cpl := s.cplFlag || (m.threshold != s.imod.threshold && m.threshold.toNat ≤ s.writeCount)
  { s with
    imod := m, cplFlag := cpl
    holdoff := if m.holdoff = s.imod.holdoff then s.holdoff
      else newHoldoff m.holdoff s.holdoff.isSome s.writeCount cpl }

/-- A write to STS: 1s clear POST_ERR and HEAD_ERR (R164). -/
def stsNow (post head : Bool) (s : State) : State :=
  { s with postErr := s.postErr && ! post, headErr := s.headErr && ! head }

/-- A write to CTL, judged whole against the device state (R163). No state admits both GO and HALT. -/
def ctlNow (go halt soft : Bool) (s : State) : State :=
  if soft then softResetNow s
  else if go && s.dev = .offline then goNow s
  else if halt then haltNow s
  else s

/-- A 32-bit write to one of the eight registers (R162, Table 12-10). -/
def writeReg (reg : HostReg) (v : Word) (s : State) : State :=
  match reg with
  | .ctl => ctlNow (v.getLsbD 0) (v.getLsbD 1) (v.getLsbD 2) s
  | .sts => stsNow (v.getLsbD 24) (v.getLsbD 25) s
  | .suaLo => { s with suaLo := v }
  | .suaHi => { s with suaHi := v }
  | .tailpost => tailpostNow (v.extractLsb' 16 3) (v.extractLsb' 0 16) s
  | .chead => cheadNow (v.extractLsb' 0 16) s
  | .icause => icauseNow (v.getLsbD 0) (v.getLsbD 1) (v.getLsbD 2) s
  | .imod =>
    imodNow (imodOf (v.getLsbD 0) (v.getLsbD 1) (v.getLsbD 2) (v.extractLsb' 8 8) (v.extractLsb' 16 16)) s

/-! ### The moderator's own events -/

/-- The moderator counts a report write (R148). -/
def countWrite (s : State) : State :=
  let n := satInc s.writeCount
  if s.cplFlag then { s with writeCount := n }
  else if s.imod.threshold.toNat ≤ n then { s with writeCount := n, cplFlag := true, holdoff := none }
  else if s.writeCount = 0 && s.imod.holdoff != 0 then
    { s with writeCount := n, holdoff := some (ticksOf s.imod.holdoff.toNat) }
  else { s with writeCount := n }

/-- The holdoff timer runs out: where CPL is clear it is set, and the timer stops (R148). -/
def holdoffNow (s : State) : State :=
  match s.holdoff with
  | none => s
  | some _ => { s with cplFlag := true, holdoff := none }

/-! ### Commands -/

/-- TAILPOST (R122). -/
def execTailpost (ring : BitVec 3) (tail : BitVec 16) (s : State) : Host.Outcome State Fault Refusal :=
  .next (tailpostNow ring tail s)

/-- CHEAD (R143). -/
def execChead (head : BitVec 16) (s : State) : Host.Outcome State Fault Refusal := .next (cheadNow head s)

/-- ICAUSE_WRITE (R149). -/
def execIcauseWrite (cpl fail setup : Bool) (s : State) : Host.Outcome State Fault Refusal :=
  .next (icauseNow cpl fail setup s)

/-- IMOD_WRITE (R150). -/
def execImodWrite (cplEn failEn setupEn : Bool) (threshold : BitVec 8) (holdoff : BitVec 16) (s : State) :
    Host.Outcome State Fault Refusal :=
  .next (imodNow (imodOf cplEn failEn setupEn threshold holdoff) s)

/-- STS_WRITE (R164). -/
def execStsWrite (post head : Bool) (s : State) : Host.Outcome State Fault Refusal := .next (stsNow post head s)

/-- REGISTER_WRITE: SUA_LO and SUA_HI take the value (R162); a register with a behaviour of its own behaves as its row. -/
def execRegisterWrite (reg : HostReg) (value : Word) (s : State) : Host.Outcome State Fault Refusal :=
  .next (writeReg reg value s)

/-- HOLDOFF_EXPIRY (R148). While the timer is stopped none falls. -/
def execHoldoffExpiry (s : State) : Host.Outcome State Fault Refusal := .next (holdoffNow s)

end Sys2Proof.Machine
end

