-- ==== Sys2Proof/Machine/Port.lean ====
section
/-! DEFINITION. The memory port: who requests it (R124, R125, R140, R167), the grant (R129), and the completion of setup reads
(R167), record reads (R126 to R128, R131), mirror writes (R125, R132) and report writes (R141, R142). -/

namespace Sys2Proof.Machine
open Sys2Proof

/-! ### Requests -/

/-- The number of reports written and not yet released (R139). -/
def Writer.unreleased (w : Writer) : Nat := ringDist w.hostHead w.tail w.size

/-- The Completion Writer requests the port (R140). -/
def writerRequests (s : State) : Bool :=
  (s.dev = .online || s.dev = .quiescing) && ! s.fillQueue.isEmpty && s.writer.inFlight.isNone
    && s.writer.unreleased + 1 < s.writer.size

/-- The axis states in which an axis fetcher reads (R124). -/
def AxisState.fetches : AxisState → Bool
  | .idle => true
  | .run => true
  | .dwell => true
  | .waitEvent => true
  | .waitSync => true
  | _ => false

/-- The owner of ring `r` can take a record: the interpreter has none in hand, or the axis carries records out and its
staging queue holds fewer than 4 (R124). -/
def ownerTakes (s : State) (r : Fin 5) : Bool :=
  if h : r = 0 then s.interp = .waiting
  else (s.axis (r.pred h)).st.fetches && (s.axis (r.pred h)).staging.length < 4

/-- The fetcher of ring `r` requests the port for a read (R124). -/
def readRequests (s : State) (r : Fin 5) : Bool :=
  let f := s.fetcher r
  s.dev = .online && ownerTakes s r && f.head != f.tail && f.inFlight.isNone && ! f.mirrorPending

/-- The fetcher of ring `r` requests the port for a mirror write (R125). -/
def mirrorRequests (s : State) (r : Fin 5) : Bool :=
  (s.dev = .online || s.dev = .quiescing) && (s.fetcher r).mirrorPending && (s.fetcher r).inFlight.isNone

/-- The fetcher of ring `r` requests the port. -/
def fetcherRequests (s : State) (r : Fin 5) : Bool := readRequests s r || mirrorRequests s r

/-- The first requesting fetcher after the pointer, in the order control, axis 0 to axis 3, control (R129). -/
def nextFetcher (s : State) : Option (Fin 5) :=
  [s.rr + 1, s.rr + 2, s.rr + 3, s.rr + 4, s.rr].find? (fetcherRequests s)

/-! ### Grants -/

/-- The writer is granted the port: it takes the front of the fill queue and starts its write (R141). -/
def grantWriter (s : State) : State :=
  match s.fillQueue with
  | [] => s
  | e :: q =>
    match s.entry e with
    | .filled r =>
      let r' := { r with seq := s.writer.seq }
      { s.setEntry e (.writing r') with
        fillQueue := q, writer := { s.writer with inFlight := some { entry := e, slot := s.writer.tail } }
        port := some (.report e (slotAddr s.writer.base s.writer.tail) r'.bytes) }
    | _ => s

/-- A fetcher is granted the port: it starts its mirror write, clearing the mark, or its read (R125, R126). -/
def grantFetcher (r : Fin 5) (s : State) : State :=
  let f := s.fetcher r
  if f.mirrorPending then
    { s.modFetcher r (fun f => { f with mirrorPending := false }) with
      rr := r, port := some (.mirror r (mirrorAddr s.setupAddr r) (mirrorWord f.head)) }
  else
    { s.modFetcher r (fun f => { f with inFlight := some { slot := f.head, cancelled := false } }) with
      rr := r, port := some (.fetchRead r (slotAddr f.base f.head)) }

/-- Device State Control is granted the port for setup read k (R167). Where the setup address plus 32 × k passes 2^64 the address
is taken modulo 2^64: DESIGN CHOICE (log entry 33). -/
def grantSetup (p : SetupRead) (s : State) : State :=
  { s with port := some (.setupRead p.next (s.setupAddr + BitVec.ofNat 64 (32 * p.next.val))) }

/-- The grant of R129: the writer first, else the next requesting fetcher, and in STARTING the setup read. -/
def portGrantNow (s : State) : State :=
  match s.port with
  | some _ => s
  | none =>
    if s.dev = .starting then
      match s.setupRead with
      | some p => grantSetup p s
      | none => s
    else if writerRequests s then grantWriter s
    else
      match nextFetcher s with
      | some r => grantFetcher r s
      | none => s

/-- Whether a grant would be made at this instant: the port is free and a party requests it (R129). -/
def State.grantDue (s : State) : Bool :=
  s.port.isNone &&
    (if s.dev = .starting then s.setupRead.isSome else writerRequests s || (nextFetcher s).isSome)

/-! ### Setup reads -/

/-- A setup read completes (R167, R168). -/
def setupReadEnd (k : Fin 4) (result : ReadEnd) (s : State) : State :=
  let s1 := { s with port := none }
  match result with
  | .busError => setupFailed .busError s1
  | .data d =>
    let chunks := (s.setupRead.map SetupRead.chunks).getD [] ++ [d]
    if k = 3 then judgeBlock chunks s1
    else { s1 with setupRead := some { next := k + 1, chunks := chunks } }

/-! ### Record reads -/

/-- The fetch in flight of ring `r` becomes none and the port is free. -/
def endFetch (r : Fin 5) (s : State) : State :=
  { s.modFetcher r (fun f => { f with inFlight := none }) with port := none }

/-- The record is appended at the back of the axis's staging queue (R4, R126). -/
def stage (a : Axis) (d : Block32) (s : State) : State :=
  s.modAxis a fun x => { x with staging := x.staging ++ [readAxisRecord d] }

/-- Deliver a record taken from ring `r`, checked as R128 gives (R126, R153). -/
def deliverRecord (r : Fin 5) (d : Block32) (s : State) : State :=
  if h : r = 0 then judgeRecord (readCtlRecord d) s else stage (r.pred h) d s

/-- The fetcher takes a record: the head moves forward, the record is delivered and the mirror write begins (R126). -/
def takeRecord (r : Fin 5) (d : Block32) (s : State) : State :=
  let f := s.fetcher r
  let h := ringNext f.head f.size
  let s1 := s.modFetcher r fun f => { f with head := h }
  deliverRecord r d { s1 with port := some (.fetchMirror r (mirrorAddr s.setupAddr r) (mirrorWord h)) }

/-- A read that is neither cancelled nor left behind by its tail is taken (R126). The control fetcher takes one only while
the interpreter has none in hand (log entry 23). -/
def takes (r : Fin 5) (s : State) : Bool :=
  let f := s.fetcher r
  (s.dev = .online || s.dev = .quiescing) && f.head != f.tail && (r != 0 || s.interp = .waiting)

/-- An uncancelled read ends in a bus error (R131, R132). -/
def readFailed (r : Fin 5) (s : State) : State :=
  if h : r = 0 then deviceFail { access := .controlRead, ring := 0 } s
  else
    let a := r.pred h
    if (s.axis a).st = .off || (s.axis a).st = .halted then s else haltCurrent a .busError s

/-- A record read completes (R126, R127, R131, R132). -/
def fetchReadEnd (r : Fin 5) (result : ReadEnd) (s : State) : State :=
  let cancelled := ((s.fetcher r).inFlight.map Fetch.cancelled).getD true
  if cancelled || s.dev = .failed then endFetch r s
  else
    match result with
    | .busError => settle (readFailed r (endFetch r s))
    | .data d => if takes r s then settle (takeRecord r d s) else endFetch r s

/-! ### Mirror writes and report writes -/

/-- A mirror write of ring `r` ends (R125, R126, R132). -/
def mirrorEnd (r : Fin 5) (busError : Bool) (s : State) : State :=
  if busError then deviceFail { access := .mirrorWrite, ring := r.castSucc } s else s

/-- A report write ends without a bus error: the tail and the sequence counter move on, the entry is FREE and the
moderator counts (R141). -/
def reportWritten (e : Fin 24) (s : State) : State :=
  let w := s.writer
  countWrite
    { s.setEntry e .free with
      writer := { w with tail := ringNext w.tail w.size, seq := w.seq + 1, inFlight := none } }

/-- A report write ends (R141, R142). While the device is FAILED its end is ignored. A held control record may take the freed entry
inside this command, or leave it to another reserver of the instant: `lookAgain` (R154, log entry 7). -/
def reportEnd (e : Fin 24) (busError : Bool) (s : State) : State :=
  let s1 := { s with port := none }
  if s.dev = .failed then { s1 with writer := { s1.writer with inFlight := none } }
  else if busError then
    deviceFail { access := .completionWrite, ring := 5 } { s1 with writer := { s1.writer with inFlight := none } }
  else settle (reportWritten e s1)

/-! ### Commands -/

/-- PORT_GRANT (R129). Where the port is granted or no party requests it, no grant is made. -/
def execPortGrant (s : State) : Host.Outcome State Fault Refusal := .next (portGrantNow s)

/-- SETUP_READ_COMPLETE (R167, R168). With no setup read on the port the answer is of an abandoned access, and ignored (R166). -/
def execSetupReadComplete (result : ReadEnd) (s : State) : Host.Outcome State Fault Refusal :=
  match s.port with
  | some (.setupRead k _) => .next (setupReadEnd k result s)
  | _ => .next s

/-- FETCH_READ_COMPLETE (R126). With no record read on the port the answer is of an abandoned access, and ignored (R121). -/
def execFetchReadComplete (result : ReadEnd) (s : State) : Host.Outcome State Fault Refusal :=
  match s.port with
  | some (.fetchRead r _) => .next (fetchReadEnd r result s)
  | _ => .next s

/-- MIRROR_WRITE_COMPLETE (R125, R126). -/
def execMirrorWriteComplete (busError : Bool) (s : State) : Host.Outcome State Fault Refusal :=
  match s.port with
  | some (.fetchMirror r _ _) => .next (mirrorEnd r busError (endFetch r s))
  | some (.mirror r _ _) => .next (mirrorEnd r busError { s with port := none })
  | _ => .next s

/-- COMPLETION_WRITE_COMPLETE (R141). -/
def execCompletionWriteComplete (busError : Bool) (s : State) : Host.Outcome State Fault Refusal :=
  match s.port with
  | some (.report e _ _) => .next (reportEnd e busError s)
  | _ => .next s

end Sys2Proof.Machine
end

