-- ==== Sys2Proof/Machine/Inputs.lean ====
section
/-! DEFINITION. The input lines: limit edges (R88 to R90), quadrature transitions and errors (R99, R101), events with their
latches, WAITs and captures (R85, R95, R13, R116, R117), and the Input Qualifier's samples (R82 to R84). -/

namespace Sys2Proof.Machine
open Sys2Proof

/-! ### Qualified levels -/

/-- A qualified edge to `high` on a line: the qualified level is the new one and the run is 0 (R84). -/
def setLevel (l : Line) (high : Bool) (s : State) : State := s.setLine l { level := high, run := 0, sampled := true }

/-! ### Limits -/

/-- The limit line of a side. -/
def limitLine (a : Axis) : Side → Line
  | .pos => .limP a
  | .neg => .limN a

/-- The direction a limit lies toward (R88). -/
def limitDir : Side → Dir
  | .pos => .forward
  | .neg => .reverse

/-- A qualified edge to `high` makes limit `side` of the axis active while the axis moves toward it (R88, R89). An edge taken after an
ABORT_AXIS, or a STOP_AXIS that rests at once, of the same instant finds the axis IDLE and acts on nothing, as R90 says, where the
pattern of R55 that R93 names has an axis brought to rest at once halt from IDLE: DESIGN CHOICE (log entry 36). -/
def limitStops (x : AxisBlock) (side : Side) (high : Bool) : Bool :=
  x.cfg.limitsOn && high == x.cfg.limitHigh && x.st.moving && x.dir == limitDir side

/-- The axis is at rest at once under a device failure, without entering HALTED (R22, R89, log entry 15). -/
def AxisBlock.failedRest (x : AxisBlock) : AxisBlock := { x.still with st := .idle, active := none }

/-- What a limit edge does beyond the change of the line's level (R89, R90). -/
def limitAct (a : Axis) (side : Side) (high : Bool) (s : State) : State :=
  if limitStops (s.axis a) side high then
    if s.dev = .failed then s.modAxis a AxisBlock.failedRest
    else haltCurrent a (limitCause (limitDir side)) s
  else s

/-! ### Quadrature -/

/-- The qualified levels of the axis's A and B lines. -/
def quadLevels (s : State) (a : Axis) : Bool × Bool := ((s.line (.encA a)).level, (s.line (.encB a)).level)

/-- Count +1 along the forward cycle of Table 6-2, −1 along the reverse cycle, 0 where not exactly one line changed (R99). -/
def quadStep (a b a' b' : Bool) : Int :=
  if a = a' then
    if b = b' then 0
    else if a' = b' then 1 else -1
  else if b = b' then
    if a' = b' then -1 else 1
  else 0

/-- The Encoder Unit counts `c` and takes the new pair as its quadrature state (R99, R103). -/
def AxisBlock.countQuad (c : Int) (p : Bool × Bool) (x : AxisBlock) : AxisBlock :=
  { x with encPos := x.encPos + BitVec.ofInt 32 c, acc := satAcc x.acc (-c), quadA := p.1, quadB := p.2 }

/-- The count of a new pair of levels under the configured count sense (R99). -/
def AxisBlock.quadCount (x : AxisBlock) (p : Bool × Bool) : Int :=
  let c := quadStep x.quadA x.quadB p.1 p.2
  if x.cfg.inverted then -c else c

/-- The Encoder Unit acts on a qualified edge of one quadrature line (R99). -/
def encoderAct (a : Axis) (s : State) : State :=
  let p := quadLevels s a
  s.modAxis a fun x => x.countQuad (x.quadCount p) p

/-- The Encoder Unit acts on edges of both lines on one sample (R101). -/
def quadErrorAct (a : Axis) (s : State) : State :=
  let p := quadLevels s a
  let s1 := s.modAxis a fun x => { x with quadErrs := satInc x.quadErrs, quadA := p.1, quadB := p.2 }
  let x := s1.axis a
  if x.cfg.countsPerStep ≠ 0 && x.st != .off && x.st != .halted && s.dev != .failed then haltCurrent a .encoder s1 else s1

/-! ### Events -/

/-- The sources an event line feeds on axis `a` (Table 5-3, R86). -/
def fedSources (l : EventLine) (a : Axis) (c : AxisConfig) : List Source :=
  match l with
  | .encI b => if a = b && c.indexSrc = .own then [.index] else []
  | .home b => if a = b && c.homeSrc = .own then [.home] else []
  | .trg m =>
    (if c.indexSrc = .trg m then [.index] else []) ++ (if c.homeSrc = .trg m then [.home] else []) ++ [.trg m]

/-- A latch takes an event at a time (R95). -/
def Latch.take (now : Word) (l : Latch) : Latch :=
  if l.flag then { l with overrun := true } else { flag := true, overrun := false, time := now }

/-- The latch of an axis and source takes the event (R95). -/
def latchEvent (p : Axis × Source) (s : State) : State :=
  s.modAxis p.1 fun x => x.setLatch p.2 ((x.latch p.2).take s.time)

/-- Every latch of the axis that the line feeds takes the event, as the axis's configuration then stands (R86, R95). -/
def reachLatches (l : EventLine) (a : Axis) (s : State) : State :=
  (fedSources l a (s.axis a).cfg).foldl (fun t src => latchEvent (a, src) t) s

/-- What an event may do beyond the latches it reaches first: reach the latches of an axis in OFF that a record in hand may enable or
configure, complete a WAIT, or be captured. -/
inductive EventTaker where
  | latches (a : Axis)
  | wait (a : Axis) (w : Wait)
  | capture (a : Axis)
deriving DecidableEq, Repr

/-- The WAIT an axis is in, if it is in WAIT_EVENT. -/
def AxisBlock.waitingOn (x : AxisBlock) : Option Wait :=
  match x.st, x.active with
  | .waitEvent, some { record := { body := .wait w, .. }, .. } => some w
  | _, _ => none

/-- The WAIT of the axis that an event of the line completes: none while the device is FAILED (R13, R22). -/
def waitTaker (l : EventLine) (s : State) (a : Axis) : List EventTaker :=
  match (s.axis a).waitingOn with
  | some w => if (fedSources l a (s.axis a).cfg).contains w.src && s.dev != .failed then [.wait a w] else []
  | none => []

/-- The arm is armed on this source (R116). -/
def CaptureArm.armedOn (m : CaptureArm) (src : Source) : Bool := m.armed && m.source = src

/-- The arm of the axis is armed on a source that the line feeds (R86, R116). -/
def AxisBlock.armedFor (l : EventLine) (a : Axis) (x : AxisBlock) : Bool := (fedSources l a x.cfg).any x.arm.armedOn

/-- A record in hand may, should it be accepted at this instant, clear the latches of the axis or give it other sources, the axis being
in OFF: an ENABLE_AXIS (R97) or a CONFIGURE_AXIS (R86). The event then reaches those latches before or after it. -/
def State.mayChangeLatches (s : State) (a : Axis) : Bool :=
  (s.axis a).st == .off && (match s.interp with
    | .holding { body := .enableAxis b, .. } => a = b
    | .holding { body := .configureAxis b _, .. } => a = b
    | _ => false)

/-- A SET_CAPTURE in hand would arm the axis, should it be accepted at this instant (R119). -/
def Interp.arms (a : Axis) : Interp → Bool
  | .holding { body := .setCaptureArm b _ _, .. } => a = b
  | _ => false

/-- The capture arm armed on a source of the line, or that a record in hand may arm at this instant (R116, R119). -/
def captureTaker (l : EventLine) (s : State) (a : Axis) : List EventTaker :=
  if (s.axis a).armedFor l a || s.interp.arms a then [.capture a] else []

/-- A counted arm after a capture: its count falls by one and at 0 it is disarmed; the missed count becomes 0 (R116). -/
def CaptureArm.captured (m : CaptureArm) : CaptureArm :=
  match m.remaining with
  | none => { m with missed := 0 }
  | some n => { m with missed := 0, remaining := some (n - 1), armed := decide (1 < n) }

/-- The Capture Unit captures an event, or misses it where no general entry can be reserved (R116, R117). -/
def captureEvent (a : Axis) (s : State) : State :=
  let m := (s.axis a).arm
  match s.freeGeneral with
  | none => s.modAxis a fun x => { x with arm := { x.arm with missed := satInc x.arm.missed } }
  | some e =>
    (fill e (axisReport s a .capture .ok none { tag := m.tag, kind := 0x19 } 0 0 (BitVec.ofNat 32 m.missed)
      (captureWord m.captured)) s).modAxis a fun x => { x with arm := x.arm.captured }

/-- A READ_STATUS is in hand, or a record marked invalid with its kind code. -/
def Interp.readsStatus : Interp → Bool
  | .waiting => false
  | .holding c => c.body.kind == 0x1A

/-- A control record in hand that takes the entry a WAIT of the event leaves unused is accepted there (R97, R119, R154); a READ_STATUS
is accepted after the whole of the event, so that its report shows the event's effect (R159, log entry 7). -/
def acceptInEvent (s : State) : State := if s.interp.readsStatus then s else acceptAtRelease none s

/-- One taker takes the event of the line (R86, R97, R118). A WAIT completes while its axis waits on it. The edge reaches an arm once,
whichever of its sources the line feeds: it acts on the arm as it then stands (R119). -/
def runTaker (l : EventLine) (t : EventTaker) (s : State) : State :=
  match t with
  | .latches a => reachLatches l a s
  | .wait a w => if (s.axis a).waitingOn = some w then acceptInEvent (completeWait a w s) else s
  | .capture a => if (s.axis a).armedFor l a then captureEvent a s else s

/-- What an event brings an axis beyond the latches reached first: its latches, where a record in hand may change them at this
instant, else the WAIT it completes, and the capture it gives (R86, R97, R118). -/
def axisTakers (l : EventLine) (s : State) (a : Axis) : List EventTaker :=
  (if s.mayChangeLatches a then [.latches a] else waitTaker l s a) ++ captureTaker l s a

/-- An event is delivered to the sources its line feeds: the latches take it, then the WAITs it completes and the captures it gives
are taken, in any order, and among them the latches of an axis in OFF that a record in hand may enable or configure at this instant
(R85, R86, R95, R97, R118, R119, log entry 3). A record in hand that still holds an entry taken inside the event is accepted after it. -/
def eventAct (l : EventLine) (s : State) : State :=
  let s1 := (allAxes.filter fun a => ! s.mayChangeLatches a).foldl (fun t a => reachLatches l a t) s
  acceptAtRelease none (inSomeOrder (allAxes.flatMap (axisTakers l s)) (runTaker l) s1)

/-- The input line of an event line. -/
def eventLine : EventLine → Line
  | .encI a => .encI a
  | .home a => .home a
  | .trg m => .trg m

/-- The number of an event line's polarity bit (Table 12-6). -/
def polarityIx : EventLine → Nat
  | .encI a => a.val
  | .home a => 4 + a.val
  | .trg m => 8 + m.val

/-- The level to which an edge of the configured polarity goes: high for RISING, low for FALLING (R84, R85). -/
def eventLevel (s : State) (l : EventLine) : Bool := ! s.inputs.polarity.getLsbD (polarityIx l)

/-! ### Samples -/

/-- The lines of a filter class (Table 5-1). -/
def classLines : FilterClass → List Line
  | .fast => allAxes.flatMap fun a => [.encA a, .encB a, .encI a]
  | .slow => (allAxes.flatMap fun a => [.limP a, .limN a, .home a]) ++ allAxes.map .trg

/-- The depth of a filter class. -/
def classDepth (c : InputsConfig) : FilterClass → Nat
  | .fast => c.fastDepth
  | .slow => c.slowDepth

/-- One sample of a line that delivers no edge (R82, R84). -/
def LineState.sample (level : Bool) (l : LineState) : LineState :=
  if ! l.sampled then { level := level, run := 0, sampled := true }
  else if level = l.level then { l with run := 0 }
  else { l with run := l.run + 1 }

/-- Whether a sample of a line delivers a qualified edge (R84). -/
def LineState.edges (depth : Nat) (level : Bool) (l : LineState) : Bool :=
  l.sampled && level != l.level && l.run + 1 == depth

/-- The input line of a quadrature line. -/
def quadInput (a : Axis) : QuadLine → Line
  | .a => .encA a
  | .b => .encB a

/-- The qualified edges as they are delivered (Table 5-3). -/
inductive Delivery where
  | limit (a : Axis) (side : Side) (high : Bool)
  | encoder (a : Axis) (line : QuadLine) (high : Bool)
  | quadError (a : Axis)
  | event (l : EventLine) (high : Bool)
deriving DecidableEq, Repr

/-- The lines of a class that deliver an edge at a sample. -/
def edgesOf (cls : FilterClass) (levels : BitVec 28) (s : State) (l : Line) : Bool :=
  (classLines cls).contains l &&
    (s.line l).edges (classDepth s.inputs cls) (levels.getLsbD (lineIx l).val)

/-- The delivery of an axis's A and B edges: a transition, or a quadrature error where both fall on the sample (R83, R99, R101). -/
def quadDelivery (edge : Line → Bool) (levels : BitVec 28) (a : Axis) : List Delivery :=
  if edge (.encA a) && edge (.encB a) then [.quadError a]
  else if edge (.encA a) then [.encoder a .a (levels.getLsbD (lineIx (.encA a)).val)]
  else if edge (.encB a) then [.encoder a .b (levels.getLsbD (lineIx (.encB a)).val)]
  else []

/-- The delivery of an event line's edge. -/
def eventDelivery (edge : Line → Bool) (levels : BitVec 28) (l : EventLine) : List Delivery :=
  if edge (eventLine l) then [.event l (levels.getLsbD (lineIx (eventLine l)).val)] else []

/-- The delivery of a limit line's edge. -/
def limitDelivery (edge : Line → Bool) (levels : BitVec 28) (a : Axis) (side : Side) : List Delivery :=
  if edge (limitLine a side) then [.limit a side (levels.getLsbD (lineIx (limitLine a side)).val)] else []

/-- Everything the qualified edges of one sample deliver. -/
def deliveries (cls : FilterClass) (levels : BitVec 28) (s : State) : List Delivery :=
  let edge := edgesOf cls levels s
  allAxes.flatMap (fun a =>
    quadDelivery edge levels a ++ eventDelivery edge levels (.encI a) ++ limitDelivery edge levels a .pos
      ++ limitDelivery edge levels a .neg ++ eventDelivery edge levels (.home a))
    ++ allAxes.flatMap fun m => eventDelivery edge levels (.trg m)

/-- A qualified edge: its line takes the new level, and the edge reaches its consumers at that instant, an edge of an event line where
its direction is the configured one (R84, R85, R89, R99, R101). -/
def runDelivery (d : Delivery) (s : State) : State :=
  match d with
  | .limit a side high => limitAct a side high (setLevel (limitLine a side) high s)
  | .encoder a line high => encoderAct a (setLevel (quadInput a line) high s)
  | .quadError a =>
    quadErrorAct a (setLevel (.encB a) (! (quadLevels s a).2) (setLevel (.encA a) (! (quadLevels s a).1) s))
  | .event l high =>
    let s1 := setLevel (eventLine l) high s
    if high = eventLevel s l then eventAct l s1 else s1

/-- Every line of the class that delivers no edge takes its sample; one that does keeps its level until the edge is delivered (R84). -/
def sampleLines (cls : FilterClass) (levels : BitVec 28) (s : State) : State :=
  ((classLines cls).filter fun l => ! edgesOf cls levels s l).foldl
    (fun t l => t.setLine l ((s.line l).sample (levels.getLsbD (lineIx l).val))) s

/-- At the first sample of an axis's encoder lines after a reset the quadrature state takes their levels, with no count (R98). -/
def firstQuad (cls : FilterClass) (before after : State) : State :=
  match cls with
  | .slow => after
  | .fast =>
    allAxes.foldl
      (fun t a =>
        if (before.line (.encA a)).sampled && (before.line (.encB a)).sampled then t
        else t.modAxis a fun x => { x with quadA := (quadLevels after a).1, quadB := (quadLevels after a).2 })
      after

/-- The raw levels of a class's lines are those of the sample; the sample of that class is no longer due. -/
def notePins (cls : FilterClass) (levels : BitVec 28) (s : State) : State :=
  let m : BitVec 28 := (classLines cls).foldl (fun m l => m ||| (1#28 <<< (lineIx l).val)) 0
  let s1 := { s with pins := (s.pins &&& ~~~m) ||| (levels &&& m) }
  match cls with
  | .fast => { s1 with fastDue := false }
  | .slow => { s1 with slowDue := false }

/-- One qualified edge of a sample. What follows from it at this instant is taken before the other edges of the sample or after them: a
free value decides (R119, R120, R154, log entry 3). -/
def deliverEdge (d : Delivery) (s : State) : State :=
  let s1 := runDelivery d s
  let s2 := { s1 with freeCount := s1.freeCount + 1 }
  if Config.freeFollow s1.freeCount then settle s2 else s2

/-- One sample of the lines of a class (R82 to R84): every line takes it, and the qualified edges are delivered, those of
different consumers in any order (log entry 3). -/
def sampleNow (cls : FilterClass) (levels : BitVec 28) (s : State) : State :=
  let s1 := firstQuad cls s (sampleLines cls levels (notePins cls levels s))
  settle (inSomeOrder (deliveries cls levels s) deliverEdge s1)

/-! ### Commands -/

/-- LIMIT_EDGE (R89, R90). -/
def execLimitEdge (a : Axis) (side : Side) (high : Bool) (s : State) : Host.Outcome State Fault Refusal :=
  .next (settle (runDelivery (.limit a side high) s))

/-- ENCODER_TRANSITION (R99). -/
def execEncoderTransition (a : Axis) (line : QuadLine) (high : Bool) (s : State) : Host.Outcome State Fault Refusal :=
  .next (runDelivery (.encoder a line high) s)

/-- QUADRATURE_ERROR: both lines change level on one sample (R101). -/
def execQuadratureError (a : Axis) (s : State) : Host.Outcome State Fault Refusal :=
  .next (settle (runDelivery (.quadError a) s))

/-- EVENT (R85). -/
def execEvent (line : EventLine) (s : State) : Host.Outcome State Fault Refusal :=
  .next (settle (runDelivery (.event line (eventLevel s line)) s))

/-- QUALIFIER_SAMPLE (R82 to R84). -/
def execQualifierSample (cls : FilterClass) (levels : BitVec 28) (s : State) : Host.Outcome State Fault Refusal :=
  .next (sampleNow cls levels s)

end Sys2Proof.Machine
end

