-- ==== Sys2Proof/Machine/Timers.lean ====
section
/-! DEFINITION. The axis timers and pulses: an expiry of the update-period timer with its following-error check, its work by
axis state and the group timeout it counts (R28, R62, R75, R104), and the beginning and end of a step pulse (R107, R109). -/

namespace Sys2Proof.Machine
open Sys2Proof

/-! ### The expiry -/

/-- The timer runs on for one update period and the direction setup mark is cleared (R27, R107). -/
def AxisBlock.expire (x : AxisBlock) : AxisBlock :=
  { x with timer := some (ticksOf x.cfg.updatePeriod), setupMark := false }

/-- The following-error check fails: counts per step not 0 and the accumulator outside the window (R104). -/
def AxisBlock.checkFails (x : AxisBlock) : Bool := x.cfg.countsPerStep != 0 && x.outsideWindow

/-- The check at an expiry of a HALTED axis (R62). -/
def AxisBlock.checkHalted (x : AxisBlock) : AxisBlock :=
  if x.cfg.countsPerStep = 0 then x
  else if x.outsideWindow then { x with further := (if x.outside then x.further else satInc x.further), outside := true }
  else { x with outside := false }

/-- The work of an expiry by axis state, once the check has passed (Table 2-3). -/
def stateWork (a : Axis) (s : State) : State :=
  match (s.axis a).st with
  | .off => s
  | .idle => considerQueue a (s.axis a).staging.length s
  | .run => runWork a s
  | .dwell => dwellWork a s
  | .waitEvent => waitWork a s
  | .waitSync => s
  | .rampDown => rampWork a s
  | .halted => s

/-- The check and the work of an expiry. In FAILED the check is not acted on and only a ramp goes on (R22, R28, R104). -/
def expiryWork (a : Axis) (s : State) : State :=
  if s.dev = .failed then
    if (s.axis a).st = .rampDown then rampWork a s else s
  else if (s.axis a).st = .halted then s.modAxis a AxisBlock.checkHalted
  else if (s.axis a).checkFails then haltCurrent a .following s
  else stateWork a s

/-- The GATHERING groups with a timeout whose lowest-numbered member is `a` (R75). A group whose first arrival is made by the expiry of
another axis at the same instant, taken before, is one of them: the expiry that R75 does not count is read as the one that makes the
arrival, DESIGN CHOICE (log entry 35). -/
def timedGroups (a : Axis) (s : State) : List GroupIx :=
  allGroups.filter fun g =>
    (s.group g).st = .gathering && (s.group g).timeout.isSome && setLowest (s.group g).members = some a

/-- A group counts an expiry (R75). -/
def Group.tick (x : Group) : Group := if x.st = .gathering then { x with count := x.count + 1 } else x

/-- A group's count has reached its timeout (R75). -/
def Group.timedOut (x : Group) : Bool :=
  x.st = .gathering && (match x.timeout with
    | none => false
    | some t => t ≤ x.count)

/-- A group breaks by its timeout, with no departing member (R75, R76). -/
def breakTimedOut (g : GroupIx) (s : State) : State := breakGroup g (s.group g).arrived s

/-- The groups that were GATHERING before the expiry and still are count it, and those whose count reaches their timeout
break (R75). -/
def countTimeouts (gs : List GroupIx) (s : State) : State :=
  let s1 := gs.foldl (fun t g => t.modGroup g Group.tick) s
  inSomeOrder (gs.filter fun g => (s1.group g).timedOut) breakTimedOut s1

/-- An expiry of the update-period timer of an axis: none falls on an axis in OFF (R28). -/
def expiryNow (a : Axis) (s : State) : State :=
  if (s.axis a).st = .off then s
  else settle (countTimeouts (timedGroups a s) (expiryWork a (s.modAxis a AxisBlock.expire)))

/-! ### Pulses -/

/-- A pulse counts in the active MOVE: in its steps issued up to its step count, then in its overrun (R20). -/
def Segment.countPulse (g : Segment) : Segment :=
  match g.record.body with
  | .move m => if g.issued < m.steps then { g with issued := g.issued + 1 } else { g with overrun := g.overrun + 1 }
  | _ => g

/-- A pulse begins (R103, R107, R109). -/
def AxisBlock.beginPulse (rest : List Nat) (x : AxisBlock) : AxisBlock :=
  { x with
    schedule := rest
    pulse := some (ticksOf x.cfg.pulseWidth)
    cmdPos := match x.dir with
      | .forward => x.cmdPos + 1
      | .reverse => x.cmdPos - 1
    acc := match x.dir with
      | .forward => satAcc x.acc x.cfg.countsPerStep
      | .reverse => satAcc x.acc (-x.cfg.countsPerStep)
    active := x.active.map Segment.countPulse }

/-- The next scheduled pulse of an axis begins; with none scheduled none does (R109). -/
def pulseNow (a : Axis) (s : State) : State :=
  match (s.axis a).schedule with
  | [] => s
  | _ :: rest => s.modAxis a (AxisBlock.beginPulse rest)

/-- STEP returns low (R107). -/
def pulseEndNow (a : Axis) (s : State) : State := s.modAxis a fun x => { x with pulse := none }

/-! ### Commands -/

/-- UPDATE_PERIOD_EXPIRY (R28). -/
def execUpdatePeriodExpiry (a : Axis) (s : State) : Host.Outcome State Fault Refusal := .next (expiryNow a s)

/-- STEP_PULSE_ISSUE (R109). -/
def execStepPulseIssue (a : Axis) (s : State) : Host.Outcome State Fault Refusal := .next (pulseNow a s)

/-- STEP_PULSE_END (R107). -/
def execStepPulseEnd (a : Axis) (s : State) : Host.Outcome State Fault Refusal := .next (pulseEndNow a s)

end Sys2Proof.Machine
end

