-- ==== Sys2Proof/Machine/Clock.lean ====
section
/-! DEFINITION. What the block does by itself when no command waits (log entry 2): an event of its own that is due at this
instant is put into the queue as its command; where none is due, a held record that can be accepted is, else 20 ns pass. -/

namespace Sys2Proof.Machine
open Sys2Proof

/-- A timer that has run out. -/
def ranOut (t : Option Nat) : Bool := t == some 0

/-- A command, where its event is due. -/
def whenDue (b : Bool) (c : Instr) : List Instr := if b then [c] else []

/-- The events of one axis that are due at this instant (R27, R107, R109). A pulse whose width has passed ends first: no pulse is
high when an expiry comes or the next pulse begins (R107). -/
def dueOfAxis (s : State) (a : Axis) : List Instr :=
  if ranOut (s.axis a).pulse then [.stepPulseEnd a]
  else
    whenDue (ranOut (s.axis a).timer) (.updatePeriodExpiry a)
      ++ whenDue ((s.axis a).schedule.head? == some 0) (.stepPulseIssue a)

/-- The events of the block that are due at this instant: a grant (R129), the end of a quiesce (R170), the holdoff timer
(R148), samples (R83), and those of the axes. -/
def dueEvents (s : State) : List Instr :=
  whenDue s.grantDue .portGrant ++ whenDue s.quiesceDone .quiesceEnd ++ whenDue (ranOut s.holdoff) .holdoffExpiry
    ++ whenDue s.fastDue (.qualifierSample .fast s.pins) ++ whenDue s.slowDue (.qualifierSample .slow s.pins)
    ++ allAxes.flatMap (dueOfAxis s)

/-- A timer with one tick less. -/
def lessTick (t : Option Nat) : Option Nat := t.map fun n => n - 1

/-- An axis after 20 ns. -/
def AxisBlock.tick (x : AxisBlock) : AxisBlock :=
  { x with timer := lessTick x.timer, pulse := lessTick x.pulse, schedule := x.schedule.map fun n => n - 1 }

/-- The Time Counter after 20 ns: it rises by one each microsecond while it runs (R173). -/
def timeTick (s : State) : State :=
  if s.timeRunning then
    if s.subTick + 1 < 50 then { s with subTick := s.subTick + 1 }
    else { s with subTick := 0, time := s.time + 1 }
  else s

/-- The slow sampling clock after 20 ns: one sampling instant every slow interval (R83). -/
def slowTick (s : State) : State :=
  if s.slowClock ≤ 1 then { s with slowClock := ticksOf s.inputs.slowInterval, slowDue := true }
  else { s with slowClock := s.slowClock - 1 }

/-- 20 ns pass: every timer has one tick less, and a fast sample is due (R83). -/
def tick (s : State) : State :=
  slowTick (timeTick { s.mapAxes AxisBlock.tick with holdoff := lessTick s.holdoff, fastDue := true })

/-- The block with no command waiting: the next event due, chosen by the free value where there are several, joins the
queue; with none due, a record in HOLDING that can have its entry is accepted (R154), and where there is none 20 ns pass. -/
def idle (s : State) : State :=
  match dueEvents s with
  | [] => if s.heldCan then lookNow s else tick s
  | c :: cs =>
    { s with
      pending := [((arrange s.freeCount (cs.length + 1) (c :: cs)).head?).getD c]
      freeCount := s.freeCount + (cs.length + 1) }

end Sys2Proof.Machine
end

