-- ==== Sys2Proof/Machine/Dispatch.lean ====
section
/-! DEFINITION. The meaning of every command: one arm per row of the opcode table. -/

namespace Sys2Proof.Machine
open Sys2Proof

/-- The effect of a command on everything but the queue. -/
def exec (i : Instr) (s : State) : Host.Outcome State Fault Refusal :=
  match i with
  | .hardwareReset powerOn => Sys2Proof.Machine.execHardwareReset powerOn s
  | .softReset => Sys2Proof.Machine.execSoftReset s
  | .go => Sys2Proof.Machine.execGo s
  | .halt => Sys2Proof.Machine.execHalt s
  | .tailpost ring tail => Sys2Proof.Machine.execTailpost ring tail s
  | .chead head => Sys2Proof.Machine.execChead head s
  | .icauseWrite cpl fail setup => Sys2Proof.Machine.execIcauseWrite cpl fail setup s
  | .imodWrite cplEn failEn setupEn threshold holdoff => Sys2Proof.Machine.execImodWrite cplEn failEn setupEn threshold holdoff s
  | .stsWrite post head => Sys2Proof.Machine.execStsWrite post head s
  | .registerWrite reg value => Sys2Proof.Machine.execRegisterWrite reg value s
  | .portGrant => Sys2Proof.Machine.execPortGrant s
  | .setupReadComplete result => Sys2Proof.Machine.execSetupReadComplete result s
  | .fetchReadComplete result => Sys2Proof.Machine.execFetchReadComplete result s
  | .mirrorWriteComplete busError => Sys2Proof.Machine.execMirrorWriteComplete busError s
  | .completionWriteComplete busError => Sys2Proof.Machine.execCompletionWriteComplete busError s
  | .holdoffExpiry => Sys2Proof.Machine.execHoldoffExpiry s
  | .quiesceEnd => Sys2Proof.Machine.execQuiesceEnd s
  | .updatePeriodExpiry a => Sys2Proof.Machine.execUpdatePeriodExpiry a s
  | .stepPulseIssue a => Sys2Proof.Machine.execStepPulseIssue a s
  | .stepPulseEnd a => Sys2Proof.Machine.execStepPulseEnd a s
  | .limitEdge a side high => Sys2Proof.Machine.execLimitEdge a side high s
  | .encoderTransition a line high => Sys2Proof.Machine.execEncoderTransition a line high s
  | .quadratureError a => Sys2Proof.Machine.execQuadratureError a s
  | .event line => Sys2Proof.Machine.execEvent line s
  | .configureAxis a tag cfg => Sys2Proof.Machine.execConfigureAxis a tag cfg s
  | .configureInputs tag cfg => Sys2Proof.Machine.execConfigureInputs tag cfg s
  | .enableAxis a tag => Sys2Proof.Machine.execEnableAxis a tag s
  | .disableAxis a tag => Sys2Proof.Machine.execDisableAxis a tag s
  | .stopAxis a tag decel => Sys2Proof.Machine.execStopAxis a tag decel s
  | .abortAxis a tag => Sys2Proof.Machine.execAbortAxis a tag s
  | .clearFault a tag resume realign => Sys2Proof.Machine.execClearFault a tag resume realign s
  | .defineGroup g tag members reusable timeout => Sys2Proof.Machine.execDefineGroup g tag members reusable timeout s
  | .clearGroup g tag => Sys2Proof.Machine.execClearGroup g tag s
  | .setCaptureArm a tag src count => Sys2Proof.Machine.execSetCaptureArm a tag src count s
  | .setCaptureDisarm a tag => Sys2Proof.Machine.execSetCaptureDisarm a tag s
  | .readStatus a tag => Sys2Proof.Machine.execReadStatus a tag s
  | .nop tag => Sys2Proof.Machine.execNop tag s
  | .invalidControlRecord kind index tag => Sys2Proof.Machine.execInvalidControlRecord kind index tag s
  | .qualifierSample cls levels => Sys2Proof.Machine.execQualifierSample cls levels s

end Sys2Proof.Machine
end

