-- ==== Sys2Proof/Safety.lean ====
section
/-! DEFINITION. The terms in which the statements are made: the invariants of an axis, a group and the rings, what an operation of
the sequencers leaves, the halt of an axis that leaves a gathering, and the completion of a control record. -/

namespace Sys2Proof.Machine
open Sys2Proof

/-! ### Invariants of an axis -/

/-- An axis that holds a record is in WAIT_SYNC (R1, R71). -/
def AxisBlock.HeldInWaitSync (x : AxisBlock) : Prop := x.held ≠ none → x.st = .waitSync

/-- The rate and the fraction of an axis are as R31, R32 and R35 give: 0 unless the axis moves, between the creep rate and the
maximum rate in RUN, at most the maximum rate in RAMP_DOWN. The configuration passes the checks of Table 10-4, the first-period
mark is clear between commands, and a held MOVE has a start rate in range, from which this follows. -/
structure AxisBlock.RatesInRange (x : AxisBlock) : Prop where
  held : x.HeldInWaitSync
  heldRate : ∀ h, x.held = some h → frontInvalid x.cfg h.record.body = false
  config : firstFailing x.cfg = none
  mark : x.firstMark = false
  fraction : x.frac < 65536
  rest : x.st ≠ .run → x.st ≠ .rampDown → x.rate = 0 ∧ x.frac = 0
  run : x.st = .run → x.cfg.creepRate ≤ x.rate ∧ x.rate ≤ x.cfg.maxRate
  ramp : x.st = .rampDown → x.rate ≤ x.cfg.maxRate

/-- EN is asserted and the update-period timer runs while the axis is out of OFF and only then (R27, R111), and DIR holds the
level of the direction the Profile Generator holds (R26, R106). -/
structure AxisBlock.OutputsFollow (x : AxisBlock) : Prop where
  held : x.HeldInWaitSync
  enable : x.en = true ↔ x.st ≠ .off
  timer : x.timer.isSome = true ↔ x.st ≠ .off
  dir : x.dirPin = dirLevel x.dir

/-- A fault cause is held in HALTED and only there, and the further-fault count is 0 elsewhere (R1, R59, R62, R64). -/
structure AxisBlock.CauseInHalted (x : AxisBlock) : Prop where
  held : x.HeldInWaitSync
  cause : x.cause ≠ none ↔ x.st = .halted
  further : x.st ≠ .halted → x.further = 0

/-- A clear latch has its overrun flag clear and its time 0 (R94), the counts of an axis stay within their ranges (R1, R98, R113)
and the accumulator within its limits (R103). -/
structure AxisBlock.CountsInRange (x : AxisBlock) : Prop where
  latch : ∀ src, (x.latch src).flag = false → (x.latch src).overrun = false ∧ (x.latch src).time = 0
  further : x.further ≤ 255
  quadErrs : x.quadErrs ≤ 255
  missed : x.arm.missed ≤ 255
  accumulator : -2147483647 ≤ x.acc ∧ x.acc ≤ 2147483647

/-! ### Invariants of a group -/

/-- A group entry is as R67 and Table 4-2 give: its arrived set is a subset of its member set, not empty in GATHERING and empty in
every other state, and a FREE entry holds the values of Table 4-2. -/
structure Group.WellKept (x : Group) : Prop where
  arrived : ∀ a, setHas x.arrived a = true → setHas x.members a = true
  gathering : x.st = .gathering ↔ x.arrived ≠ 0
  free : x.st = .free → x = Group.reset

/-! ### Invariants of the rings -/

/-- A ring's indices lie within its size; before the first entry to ONLINE size and indices are 0 (R121, R139). -/
def indicesIn (size i j : Nat) : Prop := i < size ∧ j < size ∨ size = 0 ∧ i = 0 ∧ j = 0

/-- The heads and tails of the six rings lie within their rings, and a report write is on the port only for a ring that has a
geometry (R121, R139). -/
structure State.RingsInRange (s : State) : Prop where
  fetchers : ∀ r, indicesIn (s.fetcher r).size (s.fetcher r).head (s.fetcher r).tail
  writer : indicesIn s.writer.size s.writer.hostHead s.writer.tail
  port : ∀ e a v, s.port = some (.report e a v) → 0 < s.writer.size

/-! ### Invariants of the staging queues and of the completion buffer -/

/-- A staging queue holds at most 4 records (R4), and fewer than 4 while a read of its axis's ring is on the port (R124). -/
structure State.StagingInBounds (s : State) : Prop where
  most : ∀ a, (s.axis a).staging.length ≤ 4
  reading : ∀ a ad, s.port = some (.fetchRead (axisRing a) ad) → (s.axis a).staging.length < 4

/-- The completion buffer as R134 gives it: the fill queue holds the FILLED entries, each once. In a device that is not FAILED the
entry of an active segment, of a held record (R6) and of a stop request (R46, R47) is RESERVED to it, a stop request is pending in
RAMP_DOWN alone, the entry a report write is for is WRITING (R141), and a fault slot is FREE unless its axis is HALTED (R63), or went
from HALTED to OFF in a quiesce with its report unwritten (R21). An axis holds a record in WAIT_SYNC alone, and no entry is claimed
(log entry 7). A setup read is on the port in STARTING alone (R167), and a FAILED device has no record in hand (R171). -/
structure State.BufferKept (s : State) : Prop where
  once : s.fillQueue.Nodup
  filled : ∀ e, e ∈ s.fillQueue ↔ ∃ r, s.entry e = .filled r
  active : s.dev ≠ .failed → ∀ a g, (s.axis a).active = some g → s.entry g.entry = .reserved (.axisRecord a)
  held : s.dev ≠ .failed → ∀ a h, (s.axis a).held = some h → s.entry h.entry = .reserved (.heldSync a)
  request : s.dev ≠ .failed → ∀ a q, (s.axis a).stopReq = some q →
    s.entry q.entry = .reserved (.stopRequest a) ∧ (s.axis a).st = .rampDown
  writing : s.dev ≠ .failed → ∀ e ad v, s.port = some (.report e ad v) → ∃ r, s.entry e = .writing r
  faultSlot : s.dev ≠ .failed → ∀ a, s.entry (faultSlot a) = .free ∨ (s.axis a).st = .halted ∨
    (s.dev = .quiescing ∧ (s.axis a).st = .off ∧ ∀ b, (s.axis b).st.moving = false)
  waitSync : ∀ a, (s.axis a).HeldInWaitSync
  setup : ∀ k ad, s.port = some (.setupRead k ad) → s.dev = .starting
  failed : s.dev = .failed → s.interp = .waiting
  claim : s.claim = none

/-! ### What an operation leaves -/

/-- `s` with the parts of `t` that the operations of the sequencers and the group table change. -/
def State.withMoving (s t : State) : State :=
  { s with
    axes := t.axes, groups := t.groups, fetchers := t.fetchers, entries := t.entries, fillQueue := t.fillQueue
    claim := t.claim, freeCount := t.freeCount }

/-- Outside the axes, groups, fetchers, completion buffer and free values' counter, `t` is `s`. -/
def SameRest (s t : State) : Prop := t = s.withMoving t

/-- From `s` to `t` every axis is OFF and the device state is kept: the arms are disarmed, the positions and the configuration kept, and
an axis that was out of OFF is at rest, its queue empty, its timer stopped and EN deasserted, with no fault cause (R21, R22, R120). -/
def AllWentOff (s t : State) : Prop :=
  t.dev = s.dev ∧ ∀ b, (t.axis b).st = .off ∧ (t.axis b).arm.armed = false ∧ (t.axis b).cmdPos = (s.axis b).cmdPos ∧
    (t.axis b).encPos = (s.axis b).encPos ∧ (t.axis b).cfg = (s.axis b).cfg ∧
    ((s.axis b).st ≠ .off → (t.axis b).staging = [] ∧ (t.axis b).active = none ∧ (t.axis b).timer = none ∧
      (t.axis b).en = false ∧ (t.axis b).cause = none ∧ (t.axis b).rate = 0 ∧ (t.axis b).schedule = [])

/-! ### Control records -/

/-- The device is ONLINE and the Control Interpreter has no record in hand (R152). -/
def State.Ready (s : State) : Prop := s.dev = .online ∧ s.interp = .waiting

/-- A general entry is FREE (R134, R135). -/
def State.FreeGeneral (s : State) (e : Fin 24) : Prop := e.val < 16 ∧ s.entry e = .free

/-- Entry `e` is FILLED with `r` and joins the back of the fill queue (R137). -/
def State.withReport (s : State) (e : Fin 24) (r : Report) : State :=
  { s.setEntry e (.filled r) with fillQueue := s.fillQueue ++ [e] }

/-! ### A gathering that an axis leaves -/

/-- Axis `a` waits in WAIT_SYNC with `h`, its entry a general one, on a gathering group; it and the other arrived members have no active
segment and no stop request pending, and each of those holds a record in a general entry of its own (R1, R46, R71). -/
structure State.Gathers (s : State) (a : Axis) (h : Held) : Prop where
  state : (s.axis a).st = .waitSync
  holds : (s.axis a).held = some h
  record : (s.axis a).active = none
  request : (s.axis a).stopReq = none
  entry : h.entry.val < 16
  group : (s.group h.group).st = .gathering
  others : ∀ b, b ≠ a → setHas (s.group h.group).arrived b = true → (s.axis b).stopReq = none ∧ (s.axis b).active = none ∧
    ∃ k, (s.axis b).held = some k ∧ k.entry.val < 16 ∧ k.entry ≠ h.entry

/-- From `s` to `t` axis `a`, which waited with `h`, halted with a cause (R59, R76, R77): its held record retired HALTED and its FAULT
report followed, its queue was flushed and its positions kept; its group broke, every other arrived member halted with SYNC_BROKEN
after those reports, and no other axis and no other group changed. -/
structure HaltedFromGathering (s t : State) (a : Axis) (h : Held) (cause : FaultCause) : Prop where
  state : (t.axis a).st = .halted
  reason : (t.axis a).cause = some cause
  record : (t.axis a).held = none ∧ (t.axis a).active = none ∧ (t.axis a).staging = []
  positions : (t.axis a).cmdPos = (s.axis a).cmdPos ∧ (t.axis a).encPos = (s.axis a).encPos
  segment : t.entry h.entry = .filled {
    seq := 0, source := .axis a, kind := .segment, status := .halted, cause := some cause, echo := h.record.kind, flushed := 0
    ringHead := 0, tag := h.record.tag, time := s.time, cmd := (s.axis a).cmdPos, enc := (s.axis a).encPos, wordA := 0, wordB := 0 }
  fault : ∃ r, t.entry (faultSlot a) = .filled r ∧ r.kind = .fault ∧ r.cause = some cause ∧ r.tag = h.record.tag ∧
    r.flushed = (s.axis a).staging.length
  order : ∃ more, t.fillQueue = s.fillQueue ++ [h.entry, faultSlot a] ++ more ∧
    ∀ b, b ≠ a → setHas (s.group h.group).arrived b = true → faultSlot b ∈ more
  group : t.group h.group = { s.group h.group with st := .broken, arrived := 0, count := 0 }
  groups : ∀ k, k ≠ h.group → t.group k = s.group k
  members : ∀ b, b ≠ a → setHas (s.group h.group).arrived b = true → (t.axis b).st = .halted ∧
    (t.axis b).cause = some .syncBroken ∧ (t.axis b).held = none ∧ (t.axis b).staging = []
  rest : ∀ b, b ≠ a → setHas (s.group h.group).arrived b = false → t.axis b = s.axis b

/-- The CONTROL report of a record that names no axis, or of one that names axis `a` (R138, R155). -/
def ctlReport (s : State) (a? : Option Axis) (tag : Word) (kind : BitVec 5) (st : Status) (flushed head : Nat)
    (wa wb : Word) : Report where
  seq := 0
  source := .control
  kind := .control
  status := st
  cause := none
  echo := kind
  flushed := flushed
  ringHead := head
  tag := tag
  time := s.time
  cmd := match a? with
    | some a => (s.axis a).cmdPos
    | none => 0
  enc := match a? with
    | some a => (s.axis a).encPos
    | none => 0
  wordA := wa
  wordB := wb

end Sys2Proof.Machine
end

