-- ==== Sys2Proof/Certificates/Slice0/Obligations.lean ====
section
/-! DEFINITION. The statements for the provers. Where a statement rests on a choice of the model, its docstring names the log
entry. -/

section
open Sys2Proof Sys2Proof.Machine

/-! ### The queue and a step -/

/-- A step takes the command at the front of the queue and runs it with the queue's rest. -/
def Obligations.StepRunsFront : Prop :=
  ∀ (s : State) (c : Instr) (rest : List Instr), s.pending = c :: rest → step s = exec c { s with pending := rest }

/-- With the queue empty: an event of the block that is due joins the queue as its command and nothing else happens; where none is
due a record in HOLDING that can have its entry is accepted, and where there is none 20 ns pass (the model's choice, log entries 2
and 7). The ticks drive the Time Counter (R173) and the slow sampling clock, whose interval is counted in microseconds (R83). Due are
a grant of the port with a request for it (R129), the end of a quiesce whose conditions hold (R170), the end of the holdoff (R148), a
sample of each class at its instant (R83), and of each axis an expiry, a pulse to begin and a pulse to end as their times come (R27,
R107), the end of a pulse before the other two. -/
def Obligations.EmptyQueueStep : Prop :=
  ∀ s : State, s.pending = [] →
    let writerAsks := (s.dev = .online ∨ s.dev = .quiescing) ∧ s.fillQueue ≠ [] ∧ s.writer.inFlight = none ∧
      s.writer.unreleased + 1 < s.writer.size
    let quiesced := s.dev = .quiescing ∧ (∀ a, (s.axis a).st = .off) ∧ (∀ e, s.entry e = .free) ∧ s.writer.inFlight = none ∧
      s.interp = .waiting ∧ (∀ r, (s.fetcher r).inFlight = none ∧ (s.fetcher r).mirrorPending = false) ∧ s.port = none
    (∀ c, c ∈ dueEvents s ↔
      (c = .portGrant ∧ s.port = none ∧
        ((s.dev = .starting ∧ s.setupRead ≠ none) ∨ (s.dev ≠ .starting ∧ (writerAsks ∨ ∃ r, fetcherRequests s r = true)))) ∨
      (c = .quiesceEnd ∧ quiesced) ∨ (c = .holdoffExpiry ∧ s.holdoff = some 0) ∨
      (c = .qualifierSample .fast s.pins ∧ s.fastDue = true) ∨ (c = .qualifierSample .slow s.pins ∧ s.slowDue = true) ∨
      ∃ a, (c = .stepPulseEnd a ∧ (s.axis a).pulse = some 0) ∨
        (c = .updatePeriodExpiry a ∧ (s.axis a).timer = some 0 ∧ (s.axis a).pulse ≠ some 0) ∨
        (c = .stepPulseIssue a ∧ (s.axis a).schedule.head? = some 0 ∧ (s.axis a).pulse ≠ some 0)) ∧
    (dueEvents s = [] → s.heldCan = false →
      ∃ t, step s = .next t ∧
        t = { s with
          axes := t.axes, time := t.time, subTick := t.subTick, fastDue := true
          holdoff := s.holdoff.map fun n => n - 1
          slowClock := if s.slowClock ≤ 1 then 50 * s.inputs.slowInterval else s.slowClock - 1
          slowDue := if s.slowClock ≤ 1 then true else s.slowDue } ∧
        (s.timeRunning = true → s.subTick < 50 →
          t.time.toNat * 50 + t.subTick = (s.time.toNat * 50 + s.subTick + 1) % (2 ^ 32 * 50)) ∧
        (s.timeRunning = false → t.time = s.time ∧ t.subTick = s.subTick) ∧
        ∀ a, t.axis a = { s.axis a with
          timer := (s.axis a).timer.map fun n => n - 1
          pulse := (s.axis a).pulse.map fun n => n - 1
          schedule := (s.axis a).schedule.map fun n => n - 1 }) ∧
    (dueEvents s = [] → s.heldCan = true →
      ∃ t, step s = .next t ∧ t.interp = .waiting ∧ t.pending = [] ∧ t.time = s.time ∧ t.subTick = s.subTick) ∧
    (dueEvents s ≠ [] → ∃ c ∈ dueEvents s,
      step s = .next { s with pending := [c], freeCount := s.freeCount + (dueEvents s).length })

/-- Every command answers a next state and leaves the queue as it is. That none stops the block is read from the spec (log entry 30,
DEDUCED), and an event that cannot happen in the present state changes nothing by the model's choice (log entry 5). The claim of a
held record is the model's own, and none is left after a command (log entry 7). -/
def Obligations.EveryCommandCompletes : Prop :=
  ∀ (c : Instr) (s : State), ∃ t, exec c s = .next t ∧ t.pending = s.pending ∧ (s.claim = none → t.claim = none)

/-! ### Invariants that every step keeps -/

/-- R31, R32 and R35: every step keeps every axis's rate and fraction in range. -/
def Obligations.RatesStayInRange : Prop :=
  ∀ s t : State, (∀ a, (s.axis a).RatesInRange) → step s = .next t → ∀ a, (t.axis a).RatesInRange

/-- R27, R106, R108 and R111: every step keeps EN and the timer with the axis out of OFF, and DIR with the direction. -/
def Obligations.OutputsFollowAxisState : Prop :=
  ∀ s t : State, (∀ a, (s.axis a).OutputsFollow) → step s = .next t → ∀ a, (t.axis a).OutputsFollow

/-- R59, R62 and R64: every step keeps the fault cause and the further-fault count to HALTED. -/
def Obligations.CauseOnlyInHalted : Prop :=
  ∀ s t : State, (∀ a, (s.axis a).CauseInHalted) → step s = .next t → ∀ a, (t.axis a).CauseInHalted

/-- R62, R94, R98, R103 and R113: every step keeps the latches' form, the saturating counts and the accumulator. -/
def Obligations.CountsStayInRange : Prop :=
  ∀ s t : State, (∀ a, (s.axis a).CountsInRange) → step s = .next t → ∀ a, (t.axis a).CountsInRange

/-- R67 and R72: every step keeps every group entry as R67 gives it. -/
def Obligations.GroupsStayWellKept : Prop :=
  ∀ s t : State, (∀ g, (s.group g).WellKept) → step s = .next t → ∀ g, (t.group g).WellKept

/-- R121, R123 and R139: every step keeps the heads and tails of the six rings within their rings. -/
def Obligations.RingIndicesStayInRange : Prop :=
  ∀ s t : State, s.RingsInRange → step s = .next t → t.RingsInRange

/-- R4 and R124: every step keeps every staging queue at 4 records or fewer, and at 3 or fewer while a read of its axis's ring is on
the port. -/
def Obligations.StagingQueuesHoldAtMostFour : Prop :=
  ∀ s t : State, s.StagingInBounds → step s = .next t → t.StagingInBounds

/-- R6, R46, R47, R134 and R141: every step keeps the fill queue the FILLED entries, each once, and every entry held by a record or a
stop request RESERVED to it. -/
def Obligations.FillQueueHoldsTheFilledEntries : Prop :=
  ∀ s t : State, s.BufferKept → step s = .next t → t.BufferKept

/-- The invariants hold right after reset. -/
def Obligations.ResetMeetsInvariants : Prop :=
  (∀ a, (State.reset.axis a).RatesInRange ∧ (State.reset.axis a).OutputsFollow ∧ (State.reset.axis a).CauseInHalted ∧
    (State.reset.axis a).CountsInRange) ∧
  (∀ g, (State.reset.group g).WellKept) ∧ State.reset.RingsInRange ∧ State.reset.StagingInBounds ∧ State.reset.BufferKept ∧
  State.reset.claim = none

/-! ### Resets and device states -/

/-- R166: either reset, in every state, sets every block to its reset values; a pulse already begun goes on (R23). The soft reset
keeps SUA_LO, SUA_HI and IMOD. That the quadrature state of an axis is low until its first sample is the model's choice (log entry
10), which `AxisBlock.reset` carries. -/
def Obligations.ResetsSetEveryBlock : Prop :=
  ∀ (s : State) (powerOn : Bool),
    (∃ t, exec (.hardwareReset powerOn) s = .next t ∧
      t.resetCause = (if powerOn then .power else .pin) ∧ t.suaLo = 0 ∧ t.suaHi = 0 ∧
      t.readReg .imod = 0x100#32 ∧
      t.dev = .offline ∧ t.setupCode = .none ∧ t.failure = none ∧ t.setupAddr = 0 ∧ t.setupRead = none ∧
      t.readReg .icause = 0 ∧ t.postErr = false ∧ t.headErr = false ∧ t.writeCount = 0 ∧ t.holdoff = none ∧
      t.timeRunning = false ∧ t.time = 0 ∧ t.port = none ∧ t.rr = 4 ∧ t.interp = .waiting ∧ t.fillQueue = [] ∧
      t.writer = Writer.reset ∧ t.inputs = InputsConfig.reset ∧
      (∀ a, t.axis a = { AxisBlock.reset with pulse := (s.axis a).pulse }) ∧
      (∀ g, t.group g = Group.reset) ∧ (∀ r, t.fetcher r = Fetcher.reset) ∧ (∀ e, t.entry e = .free) ∧
      (∀ l, (t.line l).sampled = false) ∧ t.faultOut = false ∧ t.irqOut = false) ∧
    (∃ t u, exec .softReset s = .next t ∧ exec (.hardwareReset true) s = .next u ∧
      t = { u with resetCause := .soft, suaLo := s.suaLo, suaHi := s.suaHi, imod := s.imod })

/-- R163 and R167: a GO in OFFLINE takes the setup address and refuses it where it is not a multiple of 64; in every other device
state it changes nothing. In STARTING the port carries the setup reads in turn. A read that ends well is kept and the next requested,
a bus error returns the device to OFFLINE with BUS_ERROR. With no setup read on the port the answer is of an abandoned access (R166).
Where the address of a read passes 2^64, that it is taken modulo 2^64 is the model's choice (log entry 33). -/
def Obligations.GoStartsTheSetupReads : Prop :=
  ∀ s : State,
    (s.dev ≠ .offline → exec .go s = .next s) ∧
    (s.dev = .offline → (s.suaHi ++ s.suaLo).toNat % 64 ≠ 0 →
      exec .go s = .next { s with setupCode := .badAlign, setupAddr := s.suaHi ++ s.suaLo, setupFlag := true }) ∧
    (s.dev = .offline → (s.suaHi ++ s.suaLo).toNat % 64 = 0 →
      exec .go s = .next { s with
        dev := .starting, setupCode := .none, setupAddr := s.suaHi ++ s.suaLo
        setupRead := some { next := 0, chunks := [] } }) ∧
    (∀ k chunks, s.dev = .starting → s.port = none → s.setupRead = some { next := k, chunks := chunks } →
      exec .portGrant s = .next { s with port := some (.setupRead k (s.setupAddr + BitVec.ofNat 64 (32 * k.val))) }) ∧
    (∀ k ad, s.port = some (.setupRead k ad) →
      exec (.setupReadComplete .busError) s = .next { s with
        port := none, dev := .offline, setupCode := .busError, setupFlag := true, setupRead := none } ∧
      ∀ d chunks, s.setupRead = some { next := k, chunks := chunks } → k ≠ 3 →
        exec (.setupReadComplete (.data d)) s = .next { s with
          port := none, setupRead := some { next := k + 1, chunks := chunks ++ [d] } }) ∧
    ((∀ k ad, s.port ≠ some (.setupRead k ad)) → ∀ res, exec (.setupReadComplete res) s = .next s)

/-- R163: a write to CTL is judged whole against the device state. -/
def Obligations.CtlWriteIsJudgedWhole : Prop :=
  ∀ (s : State) (v : Word),
    (v.getLsbD 2 = true → exec (.registerWrite .ctl v) s = exec .softReset s) ∧
    (v.getLsbD 2 = false → v.getLsbD 0 = true → s.dev = .offline → exec (.registerWrite .ctl v) s = exec .go s) ∧
    (v.getLsbD 2 = false → v.getLsbD 1 = true → s.dev = .online → exec (.registerWrite .ctl v) s = exec .halt s) ∧
    (v.getLsbD 2 = false → (v.getLsbD 0 = false ∨ s.dev ≠ .offline) → (v.getLsbD 1 = false ∨ s.dev ≠ .online) →
      exec (.registerWrite .ctl v) s = .next s) ∧
    (s.dev ≠ .offline → exec .go s = .next s) ∧ (s.dev ≠ .online → exec .halt s = .next s)

/-- R21, R76, R80, R169 and R170: a HALT in ONLINE. While an axis moves, each axis acts by its state; with none moving every axis is
OFF at once. A gathering that an axis waits on breaks, and no axis halts. R11, R13, R18 and R19: the DWELL, WAIT or held record of each
axis at one retires STOPPED with a report, also with its report flag clear, and nothing else is reported; those of two axes join the
fill queue in either order. In every other device state HALT changes nothing. -/
def Obligations.HaltBeginsTheQuiesce : Prop :=
  ∀ s : State,
    (s.dev ≠ .online → exec .halt s = .next s) ∧
    (s.Ready →
      ∃ t, exec .halt s = .next t ∧ t.dev = .quiescing ∧ t.writer = s.writer ∧ t.port = s.port ∧ t.time = s.time ∧
        (∀ g, (s.group g).st = .gathering → (∃ b h, (s.axis b).st = .waitSync ∧ (s.axis b).held = some h ∧ h.group = g) →
          t.group g = { s.group g with st := .broken, arrived := 0, count := 0 }) ∧
        (∀ g, ((s.group g).st ≠ .gathering ∨ ∀ b h, (s.axis b).st = .waitSync → (s.axis b).held = some h → h.group ≠ g) →
          t.group g = s.group g) ∧
        (∀ b, (t.axis b).st = .halted → (s.axis b).st = .halted) ∧
        (s.BufferKept →
          let stopped (a : Axis) (id : RecId) (w : Word × Word) : Report := {
            seq := 0, source := .axis a, kind := .segment, status := .stopped, cause := none, echo := id.kind, flushed := 0
            ringHead := 0, tag := id.tag, time := s.time, cmd := (s.axis a).cmdPos, enc := (s.axis a).encPos
            wordA := w.1, wordB := w.2 }
          let waits (a : Axis) : Prop :=
            (s.axis a).st = .dwell ∨ (s.axis a).st = .waitEvent ∨ (s.axis a).st = .waitSync
          ∃ es, t.fillQueue = s.fillQueue ++ es ∧ es.Nodup ∧
            (∀ e, e ∈ es ↔ (∃ a g, waits a ∧ (s.axis a).active = some g ∧ g.entry = e) ∨
              ∃ a h, (s.axis a).held = some h ∧ h.entry = e) ∧
            (∀ e, e ∉ es → t.entry e = s.entry e) ∧
            (∀ a g, waits a → (s.axis a).active = some g → t.entry g.entry = .filled (stopped a g.record.id g.words) ∧
              (∀ n k, g.record.body = .dwell n k → g.words = (BitVec.ofNat 32 g.expiries, 0)) ∧
              (∀ w, g.record.body = .wait w → g.words = (0, 0))) ∧
            (∀ a h, (s.axis a).held = some h → t.entry h.entry = .filled (stopped a h.record.id (0, 0)))) ∧
        ((∃ b, (s.axis b).st.moving = true) → t.fetchers = s.fetchers ∧
          ∀ a,
            ((s.axis a).st = .run →
              t.axis a = { s.axis a with st := .rampDown, decel := (s.axis a).cfg.stopDecel }) ∧
            ((s.axis a).st = .rampDown ∨ (s.axis a).st = .off ∨ (s.axis a).st = .idle ∨ (s.axis a).st = .halted →
              t.axis a = s.axis a) ∧
            ((s.axis a).st = .dwell ∨ (s.axis a).st = .waitEvent ∨ (s.axis a).st = .waitSync →
              (t.axis a).st = .idle ∧ (t.axis a).active = none ∧ (t.axis a).held = none ∧
                (t.axis a).staging = (s.axis a).staging ∧ (t.axis a).cmdPos = (s.axis a).cmdPos)) ∧
        ((∀ b, (s.axis b).st.moving = false) →
          ∀ a, (t.axis a).st = .off ∧ (t.axis a).arm.armed = false ∧ (t.axis a).cmdPos = (s.axis a).cmdPos ∧
            (t.axis a).encPos = (s.axis a).encPos ∧ (t.axis a).cfg = (s.axis a).cfg ∧
            ((s.axis a).st ≠ .off → (t.axis a).staging = [] ∧ (t.axis a).timer = none ∧ (t.axis a).en = false ∧
              (t.axis a).cause = none ∧ (t.axis a).further = 0)))

/-- R170: the device leaves QUIESCING where all the conditions hold; the groups become FREE and the latches clear. Where one does
not hold the command changes nothing (the model's choice, log entry 5). -/
def Obligations.QuiesceEndEntersOffline : Prop :=
  ∀ s : State,
    let done := s.dev = .quiescing ∧ (∀ a, (s.axis a).st = .off) ∧ (∀ e, s.entry e = .free) ∧ s.writer.inFlight = none ∧
      s.interp = .waiting ∧ (∀ r, (s.fetcher r).inFlight = none ∧ (s.fetcher r).mirrorPending = false) ∧ s.port = none
    (¬ done → exec .quiesceEnd s = .next s) ∧
    (done → ∃ t, exec .quiesceEnd s = .next t ∧ t = { s with dev := .offline, axes := t.axes, groups := t.groups } ∧
      (∀ g, t.group g = Group.reset) ∧
      ∀ a, t.axis a = { s.axis a with latches := t.axes[a].latches } ∧ ∀ src, (t.axis a).latch src = Latch.clear)

/-- R171: each of the three bus errors puts the device in FAILED from ONLINE and from QUIESCING: a control read, a mirror write,
a report write. The buffer is discarded, the groups freed, the fetches cancelled, the arms disarmed and the record in hand
dropped; with an axis moving it ramps at its configured deceleration, and with none moving every axis is OFF. -/
def Obligations.BusErrorsFailTheDevice : Prop :=
  ∀ (s t : State) (f : Failure), (s.dev = .online ∨ s.dev = .quiescing) →
    (((∃ ad, s.port = some (.fetchRead 0 ad)) ∧ (∃ i, (s.fetcher 0).inFlight = some { slot := i, cancelled := false }) ∧
        f = { access := .controlRead, ring := 0 } ∧ exec (.fetchReadComplete .busError) s = .next t) ∨
      (∃ r ad v, (s.port = some (.mirror r ad v) ∨ s.port = some (.fetchMirror r ad v)) ∧
        f = { access := .mirrorWrite, ring := r.castSucc } ∧ exec (.mirrorWriteComplete true) s = .next t) ∨
      ((∃ e ad v, s.port = some (.report e ad v)) ∧
        f = { access := .completionWrite, ring := 5 } ∧ exec (.completionWriteComplete true) s = .next t)) →
    t.dev = .failed ∧ t.failure = some f ∧ t.failFlag = true ∧ t.faultOut = true ∧ t.port = none ∧
      (∀ e, t.entry e = .free) ∧ t.fillQueue = [] ∧ t.interp = .waiting ∧ (∀ g, t.group g = Group.reset) ∧
      (∀ r i, (t.fetcher r).inFlight = some i → i.cancelled = true) ∧
      t.writer.tail = s.writer.tail ∧ t.writer.seq = s.writer.seq ∧ t.writeCount = s.writeCount ∧
      (∀ a, (t.axis a).arm.armed = false ∧ (t.axis a).cmdPos = (s.axis a).cmdPos ∧ (t.axis a).cfg = (s.axis a).cfg) ∧
      ((∃ b, (s.axis b).st.moving = true) → ∀ a,
        ((s.axis a).st.moving = true → (t.axis a).st = .rampDown ∧ (t.axis a).decel = (s.axis a).cfg.stopDecel ∧
          (t.axis a).rate = (s.axis a).rate ∧ (t.axis a).stopReq = none) ∧
        ((s.axis a).st.moving = false → (t.axis a).st = (s.axis a).st)) ∧
      ((∀ b, (s.axis b).st.moving = false) → ∀ a, (t.axis a).st = .off)

/-! ### Host registers and the moderator -/

/-- R122: a write to TAILPOST. -/
def Obligations.TailpostSetsTheTail : Prop :=
  ∀ (s : State) (ring : BitVec 3) (tail : BitVec 16),
    (∀ h : ring.toNat < 5, s.dev = .online → tail.toNat < (s.fetcher ⟨ring.toNat, h⟩).size →
      exec (.tailpost ring tail) s = .next (s.modFetcher ⟨ring.toNat, h⟩ fun f => { f with tail := tail.toNat })) ∧
    (5 ≤ ring.toNat ∨ s.dev ≠ .online ∨ (∃ h : ring.toNat < 5, (s.fetcher ⟨ring.toNat, h⟩).size ≤ tail.toNat) →
      exec (.tailpost ring tail) s = .next { s with postErr := true })

/-- R143: a write to CHEAD, for a host head and a tail that lie within the ring, or before the first GO. -/
def Obligations.CheadReleasesSlots : Prop :=
  ∀ (s : State) (head : BitVec 16),
    let w := s.writer
    let ahead (n : Nat) : Int := ((n : Int) - w.hostHead) % w.size
    let taken := (s.dev = .online ∨ s.dev = .quiescing) ∧ head.toNat < w.size ∧ ahead head.toNat ≤ ahead w.tail
    indicesIn w.size w.hostHead w.tail →
    (taken → exec (.chead head) s = .next { s with writer := { w with hostHead := head.toNat } } ∧
      (((w.tail : Int) - head.toNat) % w.size = ahead w.tail - ahead head.toNat)) ∧
    (¬ taken → exec (.chead head) s = .next { s with headErr := true })

/-- R148, R149, R150 and R162: a write to ICAUSE, the end of the holdoff timer, and a write to IMOD. While the timer is stopped
HOLDOFF_EXPIRY changes nothing (the model's choice, log entry 5). Where the new threshold of an IMOD write sets CPL, what becomes of
the timer is the model's choice (log entry 20), so the timer is stated for a threshold that does not. -/
def Obligations.ModeratorWritesAndHoldoff : Prop :=
  ∀ s : State,
    (∀ cpl fail setup : Bool, exec (.icauseWrite cpl fail setup) s = .next { s with
      cplFlag := if cpl then false else s.cplFlag
      failFlag := if fail then false else s.failFlag
      setupFlag := if setup then false else s.setupFlag
      writeCount := if cpl then 0 else s.writeCount
      holdoff := if cpl then none else s.holdoff }) ∧
    (s.holdoff ≠ none → exec .holdoffExpiry s = .next { s with cplFlag := true, holdoff := none }) ∧
    (s.holdoff = none → exec .holdoffExpiry s = .next s) ∧
    (∀ (ce fe se : Bool) (thr : BitVec 8) (hold : BitVec 16),
      let thr' : BitVec 8 := if thr = 0 then 1 else thr
      let sets := thr' ≠ s.imod.threshold ∧ thr'.toNat ≤ s.writeCount
      ∃ t, exec (.imodWrite ce fe se thr hold) s = .next t ∧
        t = { s with imod := t.imod, cplFlag := t.cplFlag, holdoff := t.holdoff } ∧
        t.imod = { cplEn := ce, failEn := fe, setupEn := se, threshold := thr', holdoff := hold } ∧
        (sets → t.cplFlag = true) ∧ (¬ sets → t.cplFlag = s.cplFlag) ∧
        (¬ sets → hold = s.imod.holdoff → t.holdoff = s.holdoff) ∧
        (¬ sets → hold ≠ s.imod.holdoff →
          (hold = 0 → t.holdoff = none) ∧
          (hold ≠ 0 → (s.holdoff ≠ none ∨ 0 < s.writeCount ∧ s.cplFlag = false) →
            t.holdoff = some (50 * hold.toNat)) ∧
          (hold ≠ 0 → s.holdoff = none → (s.writeCount = 0 ∨ s.cplFlag = true) → t.holdoff = none)) ∧
        t.irqOut = (t.cplFlag && ce || t.failFlag && fe || t.setupFlag && se))

/-- R65, R150, R162, R164 and Table 12-10: the writes and the reads of the host registers, and the FAULT and IRQ outputs. A write
to STS clears the two error flags written with 1, SUA_LO and SUA_HI take the value, and a 32-bit write to a register that has a
command of its own is that command. That the failure cause's ring reads 0 without a failure is the model's choice (log entry
31). -/
def Obligations.RegistersWriteAndReadAsTabled : Prop :=
  ∀ (s : State) (v : Word) (p h : Bool),
    exec (.stsWrite p h) s = .next { s with
      postErr := if p then false else s.postErr, headErr := if h then false else s.headErr } ∧
    exec (.registerWrite .suaLo v) s = .next { s with suaLo := v } ∧
    exec (.registerWrite .suaHi v) s = .next { s with suaHi := v } ∧
    exec (.registerWrite .sts v) s = exec (.stsWrite (v.getLsbD 24) (v.getLsbD 25)) s ∧
    exec (.registerWrite .tailpost v) s = exec (.tailpost (v.extractLsb' 16 3) (v.extractLsb' 0 16)) s ∧
    exec (.registerWrite .chead v) s = exec (.chead (v.extractLsb' 0 16)) s ∧
    exec (.registerWrite .icause v) s = exec (.icauseWrite (v.getLsbD 0) (v.getLsbD 1) (v.getLsbD 2)) s ∧
    exec (.registerWrite .imod v) s =
      exec (.imodWrite (v.getLsbD 0) (v.getLsbD 1) (v.getLsbD 2) (v.extractLsb' 8 8) (v.extractLsb' 16 16)) s ∧
    (s.readReg .sts).extractLsb' 0 3 = (match s.dev with
      | .offline => 0
      | .starting => 1
      | .online => 2
      | .quiescing => 3
      | .failed => 4) ∧
    (s.readReg .sts).extractLsb' 4 2 = (match s.resetCause with
      | .power => 0
      | .pin => 1
      | .soft => 2) ∧
    (s.readReg .sts).extractLsb' 8 2 = (match s.setupCode with
      | .none => 0
      | .badSize => 1
      | .badAlign => 2
      | .busError => 3) ∧
    (∀ f, s.failure = some f → (s.readReg .sts).extractLsb' 12 2 = (match f.access with
        | .controlRead => 1
        | .mirrorWrite => 2
        | .completionWrite => 3) ∧
      (s.readReg .sts).extractLsb' 16 3 = BitVec.ofNat 3 f.ring.val) ∧
    (s.failure = none → (s.readReg .sts).extractLsb' 12 2 = 0 ∧ (s.readReg .sts).extractLsb' 16 3 = 0) ∧
    (s.readReg .sts).getLsbD 24 = s.postErr ∧ (s.readReg .sts).getLsbD 25 = s.headErr ∧
    ((s.readReg .sts).getLsbD 28 = true ↔ ∃ a, (s.axis a).st = .halted) ∧
    (s.readReg .icause).getLsbD 0 = s.cplFlag ∧ (s.readReg .icause).getLsbD 1 = s.failFlag ∧
    (s.readReg .icause).getLsbD 2 = s.setupFlag ∧
    s.readReg .suaLo = s.suaLo ∧ s.readReg .suaHi = s.suaHi ∧ s.readReg .chead = BitVec.ofNat 32 s.writer.hostHead ∧
    (s.readReg .imod).getLsbD 0 = s.imod.cplEn ∧ (s.readReg .imod).getLsbD 1 = s.imod.failEn ∧
    (s.readReg .imod).getLsbD 2 = s.imod.setupEn ∧
    (s.readReg .imod).extractLsb' 8 8 = s.imod.threshold ∧ (s.readReg .imod).extractLsb' 16 16 = s.imod.holdoff ∧
    s.readReg .ctl = 0 ∧ s.readReg .tailpost = 0 ∧
    (s.faultOut = true ↔ (∃ a, (s.axis a).st = .halted) ∨ s.dev = .failed) ∧
    (s.irqOut = true ↔ s.cplFlag = true ∧ s.imod.cplEn = true ∨ s.failFlag = true ∧ s.imod.failEn = true ∨
      s.setupFlag = true ∧ s.imod.setupEn = true)

/-! ### The memory port and the rings -/

/-- R124, R125, R126, R129, R140 and R141: when a fetcher requests the port, and that the port, free, goes to the Completion Writer
where it requests, else to the first requesting fetcher after the round-robin pointer. Where it is granted already the command
changes nothing (the model's choice, log entry 5). Where the address of a slot or of a mirror word passes 2^64, that it is taken modulo
2^64 is the model's choice (log entry 33). -/
def Obligations.PortGoesToWriterThenRoundRobin : Prop :=
  ∀ s : State,
    let writerAsks := s.fillQueue ≠ [] ∧ s.writer.inFlight = none ∧ s.writer.unreleased + 1 < s.writer.size
    (∀ r, fetcherRequests s r = true ↔
      ((s.dev = .online ∨ s.dev = .quiescing) ∧ (s.fetcher r).mirrorPending = true ∧ (s.fetcher r).inFlight = none) ∨
      (s.dev = .online ∧ (s.fetcher r).head ≠ (s.fetcher r).tail ∧ (s.fetcher r).inFlight = none ∧
        (s.fetcher r).mirrorPending = false ∧ (r = 0 → s.interp = .waiting) ∧
        (∀ a : Axis, r = a.succ → (s.axis a).staging.length < 4 ∧
          ((s.axis a).st = .idle ∨ (s.axis a).st = .run ∨ (s.axis a).st = .dwell ∨ (s.axis a).st = .waitEvent ∨
            (s.axis a).st = .waitSync)))) ∧
    (s.port ≠ none → exec .portGrant s = .next s) ∧
    (s.port = none → (s.dev = .online ∨ s.dev = .quiescing) →
      (∀ e q r, writerAsks → s.fillQueue = e :: q → s.entry e = .filled r →
        ∃ t, exec .portGrant s = .next t ∧
          t = { s.setEntry e (.writing { r with seq := s.writer.seq }) with
            fillQueue := q, writer := { s.writer with inFlight := some { entry := e, slot := s.writer.tail } }
            port := some (.report e (s.writer.base + BitVec.ofNat 64 (32 * s.writer.tail))
              { r with seq := s.writer.seq }.bytes) }) ∧
      (∀ k : Fin 5, ¬ writerAsks → fetcherRequests s (s.rr + 1 + k) = true →
        (∀ j < k, fetcherRequests s (s.rr + 1 + j) = false) →
        let r := s.rr + 1 + k
        let f := s.fetcher r
        (f.mirrorPending = true → exec .portGrant s = .next
          { s.modFetcher r (fun f => { f with mirrorPending := false }) with
            rr := r
            port := some (.mirror r (s.setupAddr + BitVec.ofNat 64 (96 + 4 * r.val)) (BitVec.ofNat 32 (f.head % 1024))) }) ∧
        (f.mirrorPending = false → exec .portGrant s = .next
          { s.modFetcher r (fun f => { f with inFlight := some { slot := f.head, cancelled := false } }) with
            rr := r, port := some (.fetchRead r (f.base + BitVec.ofNat 64 (32 * f.head))) })) ∧
      (¬ writerAsks → (∀ r, fetcherRequests s r = false) → exec .portGrant s = .next s))

/-- R168: the judgement of the setup block at the end of read 3. `size` and `base` are the six descriptors of Table 12-1, two
to a read. -/
def Obligations.SetupBlockIsJudgedInRingOrder : Prop :=
  ∀ (s : State) (ad : Addr) (d0 d1 d2 d3 : Block32),
    let chunk (r : Fin 6) : Block32 := if r.val < 2 then d0 else if r.val < 4 then d1 else d2
    let base (r : Fin 6) : Addr := (chunk r).extractLsb' (128 * (r.val % 2)) 64
    let size (r : Fin 6) : Nat := ((chunk r).extractLsb' (128 * (r.val % 2) + 64) 32).toNat
    let sizeOk (r : Fin 6) : Prop := ∃ n, 3 ≤ n ∧ n ≤ 10 ∧ size r = 2 ^ n
    let baseOk (r : Fin 6) : Prop := (base r).toNat % 32 = 0
    s.port = some (.setupRead 3 ad) → s.setupRead = some { next := 3, chunks := [d0, d1, d2] } →
      ((∀ r, sizeOk r ∧ baseOk r) →
        ∃ t, exec (.setupReadComplete (.data d3)) s = .next t ∧ t.dev = .online ∧ t.port = none ∧ t.setupRead = none ∧
          t.setupCode = s.setupCode ∧ t.setupFlag = s.setupFlag ∧ t.writeCount = 0 ∧ t.holdoff = none ∧ t.interp = .waiting ∧
          t.timeRunning = true ∧ t.time = 0 ∧
          (∀ r : Fin 5, t.fetcher r = {
            base := base r.castSucc, size := size r.castSucc, head := 0, tail := 0, mirrorPending := true, inFlight := none }) ∧
          t.writer = { base := base 5, size := size 5, tail := 0, hostHead := 0, seq := 0, inFlight := none } ∧
          t.axes = s.axes ∧ t.groups = s.groups ∧ t.entries = s.entries ∧ t.fillQueue = s.fillQueue) ∧
      (∀ r, (∀ q < r, sizeOk q ∧ baseOk q) → ¬ (sizeOk r ∧ baseOk r) →
        exec (.setupReadComplete (.data d3)) s = .next { s with
          port := none, dev := .offline, setupFlag := true, setupRead := none
          setupCode := if ringSizes.contains (size r) then .badAlign else .badSize })

/-- R4, R126 and R127: a record read on an axis ring is taken at the back of the staging queue, the head moves on by one slot and
the mirror write begins; a cancelled fetch, or one whose head has met the tail, is discarded. A mirror write that ends well
frees the port (R125, R126). With no such access on the port the answer is of an abandoned one (R121). A bus error on a read
halts the axis with BUS_ERROR and leaves the head on the slot that failed (R59, R131); out of WAIT_SYNC the held record retires HALTED
and the gathering breaks (R76). Where the address of a mirror word passes 2^64, that it is taken modulo 2^64 is the model's choice (log
entry 33). -/
def Obligations.AxisReadsAreTakenOrHaltTheAxis : Prop :=
  ∀ (s : State) (a : Axis) (ad : Addr) (d : Block32) (i : Nat) (cancelled : Bool),
    (s.port = some (.fetchRead (axisRing a) ad) →
      (s.fetcher (axisRing a)).inFlight = some { slot := i, cancelled := cancelled } →
      let f := s.fetcher (axisRing a)
      (s.Ready → cancelled = false → f.head ≠ f.tail → ∃ t, exec (.fetchReadComplete (.data d)) s = .next t ∧
        t = { (s.modAxis a fun x => { x with staging := x.staging ++ [readAxisRecord d] }).modFetcher (axisRing a) fun f =>
            { f with head := (f.head + 1) % f.size } with
          port := some (.fetchMirror (axisRing a) (s.setupAddr + BitVec.ofNat 64 (96 + 4 * (axisRing a).val))
            (BitVec.ofNat 32 ((f.head + 1) % f.size % 1024))) }) ∧
      (cancelled = true ∨ s.dev = .failed ∨ f.head = f.tail →
        exec (.fetchReadComplete (.data d)) s = .next
          { s.modFetcher (axisRing a) (fun f => { f with inFlight := none }) with port := none })) ∧
    (∀ r v, s.port = some (.fetchMirror r ad v) → exec (.mirrorWriteComplete false) s = .next
      { s.modFetcher r (fun f => { f with inFlight := none }) with port := none }) ∧
    (∀ r v, s.port = some (.mirror r ad v) → exec (.mirrorWriteComplete false) s = .next { s with port := none }) ∧
    (s.port = none → ∀ res b, exec (.fetchReadComplete res) s = .next s ∧ exec (.mirrorWriteComplete b) s = .next s ∧
      exec (.completionWriteComplete b) s = .next s) ∧
    (s.Ready → s.port = some (.fetchRead (axisRing a) ad) →
      (s.fetcher (axisRing a)).inFlight = some { slot := i, cancelled := false } →
      ((s.axis a).st = .idle ∨ (s.axis a).st = .run ∨ (s.axis a).st = .dwell ∨ (s.axis a).st = .waitEvent ∨
        (s.axis a).st = .rampDown) →
      ∃ t, exec (.fetchReadComplete .busError) s = .next t ∧ t.port = none ∧ t.dev = .online ∧
        (t.axis a).st = .halted ∧ (t.axis a).cause = some .busError ∧ (t.axis a).rate = 0 ∧ (t.axis a).frac = 0 ∧
        (t.axis a).schedule = [] ∧ (t.axis a).staging = [] ∧ (t.axis a).active = none ∧ (t.axis a).stopReq = none ∧
        (t.axis a).cmdPos = (s.axis a).cmdPos ∧ (t.axis a).encPos = (s.axis a).encPos ∧
        t.fetcher (axisRing a) = { s.fetcher (axisRing a) with inFlight := none } ∧
        t.faultOut = true ∧ (∀ b, b ≠ a → t.axis b = s.axis b) ∧ t.groups = s.groups) ∧
    (∀ h, s.Ready → s.port = some (.fetchRead (axisRing a) ad) →
      (s.fetcher (axisRing a)).inFlight = some { slot := i, cancelled := false } → s.Gathers a h →
      ∃ t, exec (.fetchReadComplete .busError) s = .next t ∧ t.port = none ∧ t.dev = .online ∧
        HaltedFromGathering s t a h .busError ∧
        t.fetcher (axisRing a) = { s.fetcher (axisRing a) with inFlight := none } ∧ t.faultOut = true)

/-- R126, R127 and R153: a record read on the control ring is taken where the interpreter has none in hand. The head moves on by one
slot, the mirror write begins, and the record reaches the interpreter: what follows is what the command of that record does. A
cancelled fetch, one whose head has met the tail, and one of a device neither ONLINE nor QUIESCING is discarded, and so is one that
ends while a record is in hand (the last is the model's reading, log entry 23). Where the address of the mirror word passes 2^64, that
it is taken modulo 2^64 is the model's choice (log entry 33). -/
def Obligations.ControlReadReachesTheInterpreter : Prop :=
  ∀ (s : State) (ad : Addr) (d : Block32) (i : Nat) (cancelled : Bool),
    let f := s.fetcher 0
    let tag := (readCtlRecord d).tag
    let record : Instr := match (readCtlRecord d).body with
      | .configureAxis a c => .configureAxis a tag c
      | .configureInputs c => .configureInputs tag c
      | .enableAxis a => .enableAxis a tag
      | .disableAxis a => .disableAxis a tag
      | .stopAxis a v => .stopAxis a tag v
      | .abortAxis a => .abortAxis a tag
      | .clearFault a resume realign => .clearFault a tag resume realign
      | .defineGroup g m reusable timeout => .defineGroup g tag m reusable timeout
      | .clearGroup g => .clearGroup g tag
      | .setCaptureArm a src n => .setCaptureArm a tag src n
      | .setCaptureDisarm a => .setCaptureDisarm a tag
      | .readStatus a => .readStatus a tag
      | .nop => .nop tag
      | .invalid kind index => .invalidControlRecord kind index tag
    s.port = some (.fetchRead 0 ad) → f.inFlight = some { slot := i, cancelled := cancelled } →
      (cancelled = false → (s.dev = .online ∨ s.dev = .quiescing) → s.interp = .waiting → f.head ≠ f.tail →
        exec (.fetchReadComplete (.data d)) s = exec record
          { s.modFetcher 0 (fun f => { f with head := (f.head + 1) % f.size }) with
            port := some (.fetchMirror 0 (s.setupAddr + 96#64) (BitVec.ofNat 32 ((f.head + 1) % f.size % 1024))) }) ∧
      (cancelled = true ∨ f.head = f.tail ∨ (s.dev ≠ .online ∧ s.dev ≠ .quiescing) ∨ s.interp ≠ .waiting →
        exec (.fetchReadComplete (.data d)) s = .next
          { s.modFetcher 0 (fun f => { f with inFlight := none }) with port := none })

/-- R141 and R148: a report write that ends well, with no control record in hand. -/
def Obligations.ReportWriteIsCounted : Prop :=
  ∀ (s : State) (e : Fin 24) (ad : Addr) (v : Block32),
    s.Ready → s.port = some (.report e ad v) →
    let n := if s.writeCount < 255 then s.writeCount + 1 else s.writeCount
    ∃ t, exec (.completionWriteComplete false) s = .next t ∧
      t = { s.setEntry e .free with
        port := none, writer := t.writer, writeCount := n, cplFlag := t.cplFlag, holdoff := t.holdoff } ∧
      t.writer = { s.writer with
        tail := (s.writer.tail + 1) % s.writer.size, seq := s.writer.seq + 1, inFlight := none } ∧
      (s.cplFlag = true → t.cplFlag = true ∧ t.holdoff = s.holdoff) ∧
      (s.cplFlag = false → s.imod.threshold.toNat ≤ n → t.cplFlag = true ∧ t.holdoff = none) ∧
      (s.cplFlag = false → n < s.imod.threshold.toNat → t.cplFlag = false ∧
        t.holdoff = if s.writeCount = 0 ∧ s.imod.holdoff ≠ 0 then some (50 * s.imod.holdoff.toNat) else s.holdoff)

/-! ### Formats -/

/-- R128, R174, Tables 8-2, 10-3 and 12-2 to 12-6: a record is marked invalid exactly where its kind code is of no kind of its ring, a
reserved bit or a byte of an absent field is not 0, a code is unknown or a field lies out of its range; its tag, its kind code and its
report flag (on the control ring, its index byte) are as read. CONFIGURE_AXIS has its numeric fields judged at acceptance (R157). That
the presence bit of the count is reserved in a DISARM is the model's reading (log entry 26). -/
def Obligations.BadRecordsAreMarkedInvalid : Prop :=
  ∀ d : Block32,
    let kind : BitVec 5 := d.extractLsb' 0 5
    let byte (n : Nat) : Nat := (d.extractLsb' (8 * n) 8).toNat
    let field (lo n : Nat) : Nat := (d.extractLsb' lo n).toNat
    let set (lo n : Nat) : Prop := d.extractLsb' lo n ≠ 0
    let has (p : Nat) : Prop := d.getLsbD (24 + p) = true
    let badMove := set 26 6 ∨ set 88 8 ∨ set 184 72 ∨ (¬ has 0 ∧ set 96 32) ∨ (¬ has 1 ∧ set 176 8) ∨
      field 64 24 = 0 ∨ (has 0 ∧ 262144 < field 96 32) ∨ (d.extractLsb' 128 32).toInt < -65536 ∨
      65536 < (d.extractLsb' 128 32).toInt ∨ 1 < byte 20 ∨ 1 < byte 21 ∨ (has 1 ∧ 7 < byte 22)
    let badDwell := set 24 1 ∨ set 26 6 ∨ set 88 8 ∨ set 104 152 ∨ (¬ has 1 ∧ set 96 8) ∨ field 64 24 = 0 ∨ (has 1 ∧ 7 < byte 12)
    let badWait := set 24 2 ∨ set 28 4 ∨ set 80 16 ∨ set 120 8 ∨ set 160 96 ∨ (¬ has 2 ∧ set 96 24) ∨ (¬ has 3 ∧ set 128 32) ∨
      5 < byte 8 ∨ 1 < byte 9 ∨ (has 2 ∧ field 96 24 = 0)
    let badSetpos := set 24 4 ∨ set 30 2 ∨ set 128 128 ∨ (¬ has 4 ∧ set 64 32) ∨ (¬ has 5 ∧ set 96 32) ∨ (¬ has 4 ∧ ¬ has 5)
    let badAxis := set 5 3 ∨ set 9 15 ∨ kind = 0 ∨ 5 < kind.toNat ∨ (kind = 1 ∧ badMove) ∨ (kind = 2 ∧ badDwell) ∨
      (kind = 3 ∧ badWait) ∨ (kind = 4 ∧ badSetpos) ∨ (kind = 5 ∧ (set 24 8 ∨ set 64 192))
    let badConfigure := 3 < byte 2 ∨ set 24 8 ∨ set 239 1 ∨ set 251 1 ∨ set 255 1 ∨ 4 < field 248 3 ∨ 4 < field 252 3
    let badInputs := set 16 8 ∨ set 24 8 ∨ set 108 148 ∨ byte 8 < 1 ∨ 7 < byte 8 ∨ byte 9 < 2 ∨ 15 < byte 9 ∨
      field 80 16 < 1 ∨ 1000 < field 80 16
    let badStop := 3 < byte 2 ∨ set 24 6 ∨ set 31 1 ∨ set 96 160 ∨ (¬ has 6 ∧ set 64 32) ∨
      (has 6 ∧ (field 64 32 < 1 ∨ 262144 < field 64 32))
    let badDefine := 7 < byte 2 ∨ set 24 2 ∨ set 27 5 ∨ set 68 4 ∨ set 73 7 ∨ set 96 160 ∨ (¬ has 2 ∧ set 80 16) ∨
      (has 2 ∧ field 80 16 = 0) ∨ ∀ i j, i < j → j < 4 → ¬ (d.getLsbD (64 + i) = true ∧ d.getLsbD (64 + j) = true)
    let badCapture := 3 < byte 2 ∨ set 24 7 ∨ set 88 168 ∨ 1 < byte 8 ∨ (byte 8 = 1 ∧ (has 7 ∨ set 72 16)) ∨
      (byte 8 = 0 ∧ (5 < byte 9 ∨ (¬ has 7 ∧ set 80 8) ∨ (has 7 ∧ byte 10 = 0)))
    let bare := set 24 8 ∨ set 64 192
    let badControl := set 5 3 ∨ set 8 8 ∨ kind.toNat < 0x10 ∨ 0x1B < kind.toNat ∨ (kind = 0x10 ∧ badConfigure) ∨
      (kind = 0x11 ∧ badInputs) ∨ ((kind = 0x12 ∨ kind = 0x13 ∨ kind = 0x15 ∨ kind = 0x1A) ∧ (3 < byte 2 ∨ bare)) ∨
      (kind = 0x14 ∧ badStop) ∨ (kind = 0x16 ∧ (3 < byte 2 ∨ set 24 8 ∨ set 66 190)) ∨ (kind = 0x17 ∧ badDefine) ∨
      (kind = 0x18 ∧ (7 < byte 2 ∨ bare)) ∨ (kind = 0x19 ∧ badCapture) ∨ (kind = 0x1B ∧ (set 16 8 ∨ bare))
    (badAxis → readAxisRecord d = { tag := d.extractLsb' 32 32, report := d.getLsbD 8, body := .invalid kind }) ∧
    (¬ badAxis → ∀ k, (readAxisRecord d).body ≠ .invalid k) ∧
    (badControl → readCtlRecord d = { tag := d.extractLsb' 32 32, body := .invalid kind (d.extractLsb' 16 8) }) ∧
    (¬ badControl → ∀ k n, (readCtlRecord d).body ≠ .invalid k n)

/-- Table 12-5: the 32 bytes of an axis record, laid out field by field, read back as that record where its fields pass the checks
of Table 8-2, each optional field present or absent. -/
def Obligations.AxisRecordsReadBack : Prop :=
  ∀ (tag : Word) (report : Bool),
    let at8 (n : Nat) (v : Block32) : Block32 := v <<< (8 * n)
    let flag (b : Bool) : Block32 := (BitVec.ofBool b).setWidth 256
    let head (kind : Block32) : Block32 := kind ||| at8 1 (flag report) ||| at8 4 (tag.setWidth 256)
    let reads (d : Block32) (b : AxisBody) : Prop := readAxisRecord d = { tag := tag, report := report, body := b }
    (∀ (reverse cont : Bool) (steps : BitVec 24) (rate : Option (BitVec 32)) (delta : Word) (group : Option (Fin 8)),
      let body : AxisBody := .move {
        dir := if reverse then .reverse else .forward, steps := steps.toNat, startRate := rate.map BitVec.toNat
        delta := delta.toInt, exit := if cont then .continue else .rest, sync := group }
      body.inRange = true →
        reads (head 0x01 ||| at8 3 (flag rate.isSome) ||| at8 3 (flag group.isSome <<< 1) ||| at8 8 (steps.setWidth 256)
          ||| at8 12 ((rate.getD 0).setWidth 256) ||| at8 16 (delta.setWidth 256) ||| at8 20 (flag reverse)
          ||| at8 21 (flag cont) ||| at8 22 (BitVec.ofNat 256 ((group.map Fin.val).getD 0))) body) ∧
    (∀ (n : BitVec 24) (group : Option (Fin 8)), n ≠ 0 →
      reads (head 0x02 ||| at8 3 (flag group.isSome <<< 1) ||| at8 8 (n.setWidth 256)
        ||| at8 12 (BitVec.ofNat 256 ((group.map Fin.val).getD 0))) (.dwell n.toNat group)) ∧
    (∀ (src : Source) (fresh : Bool) (timeout : Option (BitVec 24)) (ref : Option Word), timeout ≠ some 0 →
      reads (head 0x03 ||| at8 3 (flag timeout.isSome <<< 2) ||| at8 3 (flag ref.isSome <<< 3)
          ||| at8 8 (match src with
            | .index => 0
            | .home => 1
            | .trg m => BitVec.ofNat 256 (2 + m.val))
          ||| at8 9 (flag fresh) ||| at8 12 ((timeout.getD 0).setWidth 256) ||| at8 16 ((ref.getD 0).setWidth 256))
        (.wait { src := src, policy := if fresh then .fresh else .latched, timeout := timeout.map BitVec.toNat, ref := ref })) ∧
    (∀ cmd enc : Option Word, cmd.isSome = true ∨ enc.isSome = true →
      reads (head 0x04 ||| at8 3 (flag cmd.isSome <<< 4) ||| at8 3 (flag enc.isSome <<< 5)
        ||| at8 8 ((cmd.getD 0).setWidth 256) ||| at8 12 ((enc.getD 0).setWidth 256)) (.setpos cmd enc)) ∧
    reads (head 0x05) .mark

/-- Table 12-6: the 32 bytes of a control record of every kind, laid out field by field, read back as that record where its fields
lie in the ranges of Table 10-3, each optional field present or absent. -/
def Obligations.ControlRecordsReadBack : Prop :=
  ∀ (tag : Word) (a : Axis) (g : GroupIx),
    let at8 (n : Nat) (v : Block32) : Block32 := v <<< (8 * n)
    let flag (b : Bool) : Block32 := (BitVec.ofBool b).setWidth 256
    let head (kind : Block32) (index : Nat) : Block32 := kind ||| at8 2 (BitVec.ofNat 256 index) ||| at8 4 (tag.setWidth 256)
    let reads (d : Block32) (b : CtlBody) : Prop := readCtlRecord d = { tag := tag, body := b }
    let lineCode : LineSource → Block32 := fun l => match l with
      | .own => 0
      | .trg m => BitVec.ofNat 256 (1 + m.val)
    (∀ (period window : BitVec 16) (most creep jump decel : BitVec 32) (counts setup : BitVec 8) (width : BitVec 4)
        (inverted limits high : Bool) (index home : LineSource),
      reads (head 0x10 a.val ||| at8 8 (period.setWidth 256) ||| at8 10 (window.setWidth 256) ||| at8 12 (most.setWidth 256)
          ||| at8 16 (creep.setWidth 256) ||| at8 20 (jump.setWidth 256) ||| at8 24 (decel.setWidth 256)
          ||| at8 28 (counts.setWidth 256) ||| at8 29 (width.setWidth 256) ||| at8 29 (flag inverted <<< 4)
          ||| at8 29 (flag limits <<< 5) ||| at8 29 (flag high <<< 6) ||| at8 30 (setup.setWidth 256)
          ||| at8 31 (lineCode index) ||| at8 31 (lineCode home <<< 4))
        (.configureAxis a {
          updatePeriod := period.toNat, maxRate := most.toNat, creepRate := creep.toNat, jumpLimit := jump.toNat
          stopDecel := decel.toNat, countsPerStep := counts.toNat, followWindow := window.toNat, pulseWidth := width.toNat
          dirSetup := setup.toNat, inverted := inverted, limitsOn := limits, limitHigh := high
          indexSrc := index, homeSrc := home })) ∧
    (∀ (fast slow : BitVec 8) (interval : BitVec 16) (polarity : BitVec 12),
      1 ≤ fast.toNat → fast.toNat ≤ 7 → 2 ≤ slow.toNat → slow.toNat ≤ 15 → 1 ≤ interval.toNat → interval.toNat ≤ 1000 →
      reads (head 0x11 0 ||| at8 8 (fast.setWidth 256) ||| at8 9 (slow.setWidth 256) ||| at8 10 (interval.setWidth 256)
          ||| at8 12 (polarity.setWidth 256))
        (.configureInputs {
          fastDepth := fast.toNat, slowDepth := slow.toNat, slowInterval := interval.toNat, polarity := polarity })) ∧
    reads (head 0x12 a.val) (.enableAxis a) ∧ reads (head 0x13 a.val) (.disableAxis a) ∧
    reads (head 0x15 a.val) (.abortAxis a) ∧ reads (head 0x1A a.val) (.readStatus a) ∧
    reads (head 0x18 g.val) (.clearGroup g) ∧ reads (head 0x1B 0) .nop ∧
    (∀ decel : Option (BitVec 32), (∀ v, decel = some v → 1 ≤ v.toNat ∧ v.toNat ≤ 262144) →
      reads (head 0x14 a.val ||| at8 3 (flag decel.isSome <<< 6) ||| at8 8 ((decel.getD 0).setWidth 256))
        (.stopAxis a (decel.map BitVec.toNat))) ∧
    (∀ resume realign : Bool,
      reads (head 0x16 a.val ||| at8 8 (flag resume) ||| at8 8 (flag realign <<< 1)) (.clearFault a resume realign)) ∧
    (∀ (m : AxisSet) (reusable : Bool) (timeout : Option (BitVec 16)), 2 ≤ setSize m → timeout ≠ some 0 →
      reads (head 0x17 g.val ||| at8 3 (flag timeout.isSome <<< 2) ||| at8 8 (m.setWidth 256) ||| at8 9 (flag reusable)
        ||| at8 10 ((timeout.getD 0).setWidth 256)) (.defineGroup g m reusable (timeout.map BitVec.toNat))) ∧
    (∀ (src : Source) (count : Option (BitVec 8)), count ≠ some 0 →
      reads (head 0x19 a.val ||| at8 3 (flag count.isSome <<< 7) ||| at8 9 (match src with
            | .index => 0
            | .home => 1
            | .trg m => BitVec.ofNat 256 (2 + m.val))
          ||| at8 10 ((count.getD 0).setWidth 256)) (.setCaptureArm a src (count.map BitVec.toNat))) ∧
    reads (head 0x19 a.val ||| at8 8 1) (.setCaptureDisarm a)

/-- Table 12-7: where the fields of a report stand in its 32 bytes. -/
def Obligations.ReportFieldsStandAsTabled : Prop :=
  ∀ r : Report,
    r.bytes.extractLsb' 0 32 = r.seq ∧ r.bytes.extractLsb' 32 3 = r.source.code ∧ r.bytes.extractLsb' 35 3 = r.kind.code ∧
    r.bytes.extractLsb' 38 4 = r.status.code ∧ r.bytes.extractLsb' 42 4 = causeCode r.cause ∧
    r.bytes.extractLsb' 46 5 = r.echo ∧ r.bytes.extractLsb' 51 3 = BitVec.ofNat 3 r.flushed ∧
    r.bytes.extractLsb' 54 10 = BitVec.ofNat 10 r.ringHead ∧ r.bytes.extractLsb' 64 32 = r.tag ∧
    r.bytes.extractLsb' 96 32 = r.time ∧ r.bytes.extractLsb' 128 32 = r.cmd ∧ r.bytes.extractLsb' 160 32 = r.enc ∧
    r.bytes.extractLsb' 192 32 = r.wordA ∧ r.bytes.extractLsb' 224 32 = r.wordB

/-! ### The update-period timer -/

/-- R28, R59, R60, R62 and R104: an expiry that finds the accumulator outside the window halts an axis with feedback, with
FOLLOWING, and does nothing else; out of WAIT_SYNC the held record retires HALTED and the gathering breaks (R76). Stated while no other
group gathers. At an expiry of a HALTED axis with feedback one further fault is counted where the accumulator has crossed to outside
the window, and nothing halts again. -/
def Obligations.ExpiryChecksTheFollowingError : Prop :=
  ∀ (s : State) (a : Axis),
    let x := s.axis a
    let out := x.cfg.followWindow < x.acc.natAbs
    (∀ h, s.Ready → (∀ g, g ≠ h.group → (s.group g).st ≠ .gathering) → s.Gathers a h → x.cfg.countsPerStep ≠ 0 → out →
      ∃ t, exec (.updatePeriodExpiry a) s = .next t ∧ HaltedFromGathering s t a h .following ∧ (t.axis a).outside = true ∧
        (t.axis a).timer = some (50 * x.cfg.updatePeriod) ∧ t.faultOut = true) ∧
    (s.Ready → (∀ g, (s.group g).st ≠ .gathering) →
      ((x.st = .run ∨ x.st = .rampDown ∨ x.st = .idle ∨ x.st = .dwell ∨ x.st = .waitEvent) → x.held = none →
        x.cfg.countsPerStep ≠ 0 → out →
        ∃ t, exec (.updatePeriodExpiry a) s = .next t ∧
          (t.axis a).st = .halted ∧ (t.axis a).cause = some .following ∧ (t.axis a).rate = 0 ∧ (t.axis a).frac = 0 ∧
          (t.axis a).periodSteps = 0 ∧ (t.axis a).schedule = [] ∧ (t.axis a).staging = [] ∧ (t.axis a).active = none ∧
          (t.axis a).stopReq = none ∧ (t.axis a).outside = true ∧ (t.axis a).cmdPos = x.cmdPos ∧
          (t.axis a).encPos = x.encPos ∧ (t.axis a).timer = some (50 * x.cfg.updatePeriod) ∧
          t.entry (faultSlot a) = .filled {
            seq := 0, source := .axis a, kind := .fault, status := .halted, cause := some .following
            echo := x.faultId.kind, flushed := x.staging.length, ringHead := (s.fetcher (axisRing a)).head
            tag := x.faultId.tag, time := s.time, cmd := x.cmdPos, enc := x.encPos
            wordA := ((x.staging.map AxisRecord.tag).getLast?).getD 0, wordB := 0 } ∧
          t.fillQueue.getLast? = some (faultSlot a) ∧ (∀ b, b ≠ a → t.axis b = s.axis b) ∧ t.groups = s.groups ∧
          t.faultOut = true) ∧
      (x.st = .halted → x.cfg.countsPerStep = 0 → exec (.updatePeriodExpiry a) s = .next (s.modAxis a fun x => { x with
        timer := some (50 * x.cfg.updatePeriod), setupMark := false })) ∧
      (x.st = .halted → x.cfg.countsPerStep ≠ 0 → exec (.updatePeriodExpiry a) s = .next (s.modAxis a fun x => { x with
        timer := some (50 * x.cfg.updatePeriod), setupMark := false, outside := decide out
        further := if out ∧ x.outside = false ∧ x.further < 255 then x.further + 1 else x.further })))

/-- R29, R31, R32, R33, R34 and R107: an expiry in RUN with steps remaining computes and hands over the next period. Pulses still
scheduled, which R107 leaves none of at an expiry, stay ahead of the new ones (the model's reading, log entry 24). -/
def Obligations.RunExpiryComputesThePeriod : Prop :=
  ∀ (s : State) (a : Axis) (g : Segment) (m : Move),
    let x := s.axis a
    let sum : Int := x.rate + m.delta
    let rate : Nat :=
      if sum < x.cfg.creepRate then x.cfg.creepRate else if x.cfg.maxRate < sum then x.cfg.maxRate else sum.toNat
    let steps : Nat := min ((x.frac + rate) / 65536) x.remaining
    s.Ready → (∀ g, (s.group g).st ≠ .gathering) → x.st = .run → x.active = some g → g.record.body = .move m →
    0 < x.remaining → x.firstMark = false → (x.cfg.countsPerStep = 0 ∨ x.acc.natAbs ≤ x.cfg.followWindow) →
      exec (.updatePeriodExpiry a) s = .next (s.modAxis a fun x => { x with
        timer := some (50 * x.cfg.updatePeriod), setupMark := false, rate := rate, frac := (x.frac + rate) % 65536
        remaining := x.remaining - steps, firstMark := false, periodSteps := steps
        schedule := x.schedule ++ (List.range steps).map fun k => k * (50 * x.cfg.updatePeriod) / steps })

/-- R7, R10, R18, R29 and R36: a MOVE with exit REST whose steps are all computed ends at the expiry. At or below the jump limit the
axis is IDLE, its entry filled where its report flag is set and released where not, and considers its queue at that expiry: the expiry
leaves what it leaves on the state in which the MOVE has ended. Above it the axis halts with RATE_JUMP. The report of a
MOVE that took over at a join carries the time of its own end too (log entry 34, DEDUCED, against the last clause of R39). -/
def Obligations.MoveEndsAtRest : Prop :=
  ∀ (s : State) (a : Axis) (g : Segment) (m : Move),
    let x := s.axis a
    s.Ready → (∀ g, (s.group g).st ≠ .gathering) → x.st = .run → x.active = some g → g.record.body = .move m →
    m.exit = .rest → x.remaining = 0 → x.held = none →
    (x.cfg.countsPerStep = 0 ∨ x.acc.natAbs ≤ x.cfg.followWindow) →
      let ended : AxisBlock → AxisBlock := fun x => { x with
        timer := some (50 * x.cfg.updatePeriod), setupMark := false, st := .idle, rate := 0, frac := 0, periodSteps := 0
        active := none, lastRetired := some { tag := g.record.tag, kind := 0x01 } }
      let done : Report := {
        seq := 0, source := .axis a, kind := .segment, status := .ok, cause := none, echo := 0x01, flushed := 0
        ringHead := 0, tag := g.record.tag, time := s.time, cmd := x.cmdPos, enc := x.encPos
        wordA := BitVec.ofNat 32 m.steps, wordB := 0 }
      let rested : State :=
        if g.record.report then (s.modAxis a ended).withReport g.entry done else (s.modAxis a ended).setEntry g.entry .free
      (x.rate ≤ x.cfg.jumpLimit → exec (.updatePeriodExpiry a) s = exec (.updatePeriodExpiry a) rested) ∧
      (x.rate ≤ x.cfg.jumpLimit → x.staging = [] → exec (.updatePeriodExpiry a) s = .next rested) ∧
      (x.cfg.jumpLimit < x.rate →
        ∃ t, exec (.updatePeriodExpiry a) s = .next t ∧ (t.axis a).st = .halted ∧ (t.axis a).cause = some .rateJump ∧
          (t.axis a).rate = 0 ∧ (t.axis a).frac = 0 ∧ (t.axis a).active = none ∧ (t.axis a).staging = [] ∧
          (t.axis a).cmdPos = x.cmdPos ∧ (t.axis a).encPos = x.encPos ∧
          (g.record.report = true → g.entry.val < 16 → x.stopReq = none → t.entry g.entry = .filled done) ∧
          (∃ r, t.entry (faultSlot a) = .filled r ∧ r.tag = g.record.tag ∧ r.cause = some .rateJump ∧
            r.flushed = x.staging.length) ∧
          (∀ b, b ≠ a → t.axis b = s.axis b))

/-- R37, R38, R39, R40 and Table 2-4: the CONTINUE join. A MOVE with exit CONTINUE whose steps are all computed retires OK at the
expiry, and the front of the staging queue takes over or the axis halts, in the order of Table 2-4. MARKs in front are retired first,
those with the report flag set into general entries that are FREE or that the ended MOVE leaves unused (`free` lists such entries). A
join that succeeds takes one of these too, keeps the fraction and opens the first period of the new MOVE at this expiry. Pulses still
scheduled, which R107 leaves none of at an expiry, stay ahead of the new ones (the model's reading, log entry 24). The ended
MOVE's report carries the time of its end, also where it joined itself (log entry 34, DEDUCED, against the last clause of R39). -/
def Obligations.ContinueJoinTakesOverOrHalts : Prop :=
  ∀ (s : State) (a : Axis) (g : Segment) (m : Move),
    let x := s.axis a
    let c := x.cfg
    let done : Report := {
      seq := 0, source := .axis a, kind := .segment, status := .ok, cause := none, echo := 0x01, flushed := 0
      ringHead := 0, tag := g.record.tag, time := s.time, cmd := x.cmdPos, enc := x.encPos
      wordA := BitVec.ofNat 32 m.steps, wordB := 0 }
    let mark (k : AxisRecord) : Report := {
      seq := 0, source := .axis a, kind := .segment, status := .ok, cause := none, echo := 0x05, flushed := 0
      ringHead := 0, tag := k.tag, time := s.time, cmd := x.cmdPos, enc := x.encPos, wordA := 0, wordB := 0 }
    let inRange (n : Move) : Prop := ∀ v, n.startRate = some v → c.creepRate ≤ v ∧ v ≤ c.maxRate
    let joins (n : Move) : Prop := inRange n ∧ n.sync = none ∧ n.dir = m.dir
    let jumps (n : Move) : Prop := ∃ v : Nat, n.startRate = some v ∧ c.jumpLimit < ((v : Int) - x.rate).natAbs
    let rate (n : Move) : Nat := match n.startRate with
      | some v => v
      | none =>
        if x.rate + n.delta < c.creepRate then c.creepRate
        else if c.maxRate < x.rate + n.delta then c.maxRate else (x.rate + n.delta).toNat
    let steps (n : Move) : Nat := min ((x.frac + rate n) / 65536) n.steps
    let runs (r : AxisRecord) (rest : List AxisRecord) (n : Move) (e : Fin 24) (last : RecId) : AxisBlock → AxisBlock := fun x =>
      { x with
        timer := some (50 * c.updatePeriod), setupMark := false, staging := rest
        active := some { record := r, entry := e, issued := 0, overrun := 0, expiries := 0 }
        rate := rate n, frac := (x.frac + rate n) % 65536, remaining := n.steps - steps n, firstMark := false
        periodSteps := steps n, lastRetired := some last
        schedule := x.schedule ++ (List.range (steps n)).map fun k => k * (50 * c.updatePeriod) / steps n }
    let halts (cause : FaultCause) (tag : Word) (flushed : Nat) (fills : List (Fin 24)) : Prop :=
      ∃ t, exec (.updatePeriodExpiry a) s = .next t ∧ (t.axis a).st = .halted ∧ (t.axis a).cause = some cause ∧
        (t.axis a).rate = 0 ∧ (t.axis a).frac = 0 ∧ (t.axis a).staging = [] ∧ (t.axis a).active = none ∧
        (t.axis a).cmdPos = x.cmdPos ∧ (t.axis a).encPos = x.encPos ∧ t.fillQueue = s.fillQueue ++ fills ++ [faultSlot a] ∧
        (∃ q, t.entry (faultSlot a) = .filled q ∧ q.kind = .fault ∧ q.cause = some cause ∧ q.tag = tag ∧ q.flushed = flushed ∧
          q.ringHead = (s.fetcher (axisRing a)).head) ∧
        (g.record.report = true → t.entry g.entry = .filled done) ∧ (∀ b, b ≠ a → t.axis b = s.axis b) ∧ t.groups = s.groups
    let fills : List (Fin 24) := if g.record.report then [g.entry] else []
    s.Ready → (∀ g, (s.group g).st ≠ .gathering) → x.st = .run → x.active = some g → g.record.body = .move m →
    m.exit = .continue → x.remaining = 0 → x.dir = m.dir → x.held = none → x.stopReq = none → g.entry.val < 16 →
    s.entry g.entry ≠ .free → (c.countsPerStep = 0 ∨ x.acc.natAbs ≤ c.followWindow) →
      (∀ (marks : List AxisRecord) (r : AxisRecord) (rest : List AxisRecord) (n : Move) (free : List (Fin 24)),
        x.staging = marks ++ r :: rest → (∀ k ∈ marks, k.body = .mark) → r.body = .move n → joins n → ¬ jumps n →
        free.Nodup → (∀ e ∈ free, s.FreeGeneral e ∨ e = g.entry ∧ g.record.report = false) →
        (marks.filter AxisRecord.report).length < free.length →
        ∃ (t : State) (e : Fin 24) (es : List (Fin 24)), exec (.updatePeriodExpiry a) s = .next t ∧ SameRest s t ∧
          t.axis a = runs r rest n e ((marks.getLast?.map AxisRecord.id).getD { tag := g.record.tag, kind := 0x01 }) x ∧
          (∀ b, b ≠ a → t.axis b = s.axis b) ∧ t.groups = s.groups ∧ t.fetchers = s.fetchers ∧
          t.entry e = .reserved (.axisRecord a) ∧ t.fillQueue = s.fillQueue ++ fills ++ es ∧
          (g.record.report = true → t.entry g.entry = .filled done) ∧
          List.Forall₂ (fun k p => t.entry p = .filled (mark k)) (marks.filter AxisRecord.report) es ∧
          (∀ p ∈ e :: es, s.FreeGeneral p ∨ p = g.entry ∧ g.record.report = false) ∧
          (∀ p, p ∉ e :: es → p ≠ g.entry → t.entry p = s.entry p) ∧
          (g.record.report = false → g.entry ∉ e :: es → t.entry g.entry = .free)) ∧
      (x.staging = [] → halts .underrun g.record.tag 0 fills) ∧
      (∀ r rest, x.staging = r :: rest →
        ((∃ k, r.body = .invalid k) ∨ (∃ n, r.body = .move n ∧ ¬ inRange n) →
          halts .recordInvalid r.tag (rest.length + 1) fills) ∧
        ((∃ n k, r.body = .dwell n k) ∨ (∃ w, r.body = .wait w) ∨ (∃ p q, r.body = .setpos p q) ∨
            (∃ n, r.body = .move n ∧ inRange n ∧ (n.sync ≠ none ∨ n.dir ≠ m.dir)) →
          halts .sequence r.tag (rest.length + 1) fills) ∧
        (g.record.report = true → (∀ e, ¬ s.FreeGeneral e) → r.body = .mark ∨ (∃ n, r.body = .move n ∧ joins n) →
          halts .underrun r.tag (rest.length + 1) fills) ∧
        (∀ n, r.body = .move n → joins n → jumps n → (g.record.report = false ∨ ∃ e, s.FreeGeneral e) →
          halts .rateJump r.tag (rest.length + 1) fills)) ∧
      (∀ k, x.staging = [k] → k.body = .mark → k.report = true → g.record.report = true → (∃ e, s.FreeGeneral e) →
        ∃ e, s.FreeGeneral e ∧ halts .underrun g.record.tag 0 [g.entry, e])

/-- R43, R44, R51 and R58: an expiry in RAMP_DOWN subtracts the deceleration in force. Where the rate does not reach 0 the whole steps
are handed over without a cap, behind pulses still scheduled, which R107 leaves none of at an expiry (the model's reading, log entry
24). Where it does, a pending stop request reaches its rest instant, in ONLINE and under a quiesce. Under a quiesce with no request
pending the MOVE retires STOPPED (R21), and in FAILED its axis rests and the window is not looked at (R22, R104); in both the axes go to
OFF together once none moves. That in FAILED, while another axis still ramps, the axis that rests is IDLE with its record dropped is the
model's choice (log entry 15, DESIGN CHOICE: R22 names no state before all go to OFF). The report of a MOVE that took over at a join
carries the time of its retirement too (log entry 34, DEDUCED, against the last clause of R39). -/
def Obligations.RampExpirySubtracts : Prop :=
  ∀ (s : State) (a : Axis) (g : Segment),
    let x := s.axis a
    let rate := x.rate - x.decel
    let steps := (x.frac + rate) / 65536
    let inWindow := x.cfg.countsPerStep = 0 ∨ x.acc.natAbs ≤ x.cfg.followWindow
    let stopped : Report := {
      seq := 0, source := .axis a, kind := .segment, status := .stopped, cause := none, echo := g.record.kind, flushed := 0
      ringHead := 0, tag := g.record.tag, time := s.time, cmd := x.cmdPos, enc := x.encPos
      wordA := g.words.1, wordB := g.words.2 }
    let rests : AxisBlock → AxisBlock := fun x => { x with
      timer := some (50 * x.cfg.updatePeriod), setupMark := false, st := .idle, rate := 0, frac := 0, periodSteps := 0
      active := none }
    let alone := ∀ b, b ≠ a → (s.axis b).st.moving = false
    (∀ m, g.record.body = .move m → g.words = (BitVec.ofNat 32 g.issued, BitVec.ofNat 32 g.overrun)) ∧
    ((s.dev = .online ∨ s.dev = .quiescing ∨ s.dev = .failed) → s.interp = .waiting → (∀ g, (s.group g).st ≠ .gathering) →
      x.st = .rampDown → x.active = some g → x.held = none → (s.dev = .failed ∨ inWindow) →
      (x.decel < x.rate → exec (.updatePeriodExpiry a) s = .next (s.modAxis a fun x => { x with
        timer := some (50 * x.cfg.updatePeriod), setupMark := false, rate := rate, frac := (x.frac + rate) % 65536
        remaining := x.remaining - steps, periodSteps := steps
        schedule := x.schedule ++ (List.range steps).map fun k => k * (50 * x.cfg.updatePeriod) / steps })) ∧
      (∀ q, s.dev ≠ .failed → x.rate ≤ x.decel → x.stopReq = some q → ∃ t, exec (.updatePeriodExpiry a) s = .next t ∧
        t.fetcher (axisRing a) = (s.fetcher (axisRing a)).setHead ∧ t.fillQueue = s.fillQueue ++ [g.entry, q.entry] ∧
        (g.entry ≠ q.entry → t.entry g.entry =
          .filled { stopped with status := if q.kind = .abort then .aborted else .stopped }) ∧
        t.entry q.entry = .filled (ctlReport s (some a) q.tag q.kind.code .ok x.staging.length
          (s.fetcher (axisRing a)).tail (((x.staging.map AxisRecord.tag).getLast?).getD 0) q.superseded) ∧
        (s.dev = .online ∨ ¬ alone →
          t.axis a = { rests x with
            staging := [], stopReq := none, lastRetired := some { tag := g.record.tag, kind := g.record.kind } } ∧
          ∀ b, b ≠ a → t.axis b = s.axis b) ∧
        (s.dev = .quiescing → alone → AllWentOff s t)) ∧
      (s.dev = .quiescing → x.rate ≤ x.decel → x.stopReq = none →
        (¬ alone → exec (.updatePeriodExpiry a) s = .next ((s.modAxis a fun x => { rests x with
          lastRetired := some { tag := g.record.tag, kind := g.record.kind } }).withReport g.entry stopped)) ∧
        (alone → ∃ t, exec (.updatePeriodExpiry a) s = .next t ∧ AllWentOff s t ∧ t.entry g.entry = .filled stopped ∧
          t.fillQueue = s.fillQueue ++ [g.entry] ∧ ∀ e, e ≠ g.entry → t.entry e = s.entry e)) ∧
      (s.dev = .failed → x.rate ≤ x.decel →
        (¬ alone → exec (.updatePeriodExpiry a) s = .next (s.modAxis a rests)) ∧
        (alone → ∃ t, exec (.updatePeriodExpiry a) s = .next t ∧ AllWentOff s t ∧ t.entries = s.entries ∧
          t.fillQueue = s.fillQueue)))

/-- R7, R11, R15 and R18: a DWELL, and a WAIT with a timeout, count the expiries of their axis and end at the one that completes the
count, the DWELL OK with its duration, reported where its flag is set, and the WAIT with TIMEOUT. The axis is IDLE and considers its
queue at that expiry: the expiry leaves what it leaves on the state in which the record has ended. -/
def Obligations.DwellAndWaitCountExpiries : Prop :=
  ∀ (s : State) (a : Axis) (g : Segment) (n : Nat) (sync : Option GroupIx) (w : Wait),
    let x := s.axis a
    let ended : State := s.modAxis a fun x => { x with
      timer := some (50 * x.cfg.updatePeriod), setupMark := false, st := .idle, active := none
      lastRetired := some { tag := g.record.tag, kind := g.record.kind } }
    let rested : State :=
      if x.st = .dwell ∧ g.record.report = false then ended.setEntry g.entry .free
      else ended.withReport g.entry {
        seq := 0, source := .axis a, kind := .segment, status := if x.st = .dwell then .ok else .timeout, cause := none
        echo := g.record.kind, flushed := 0, ringHead := 0, tag := g.record.tag, time := s.time, cmd := x.cmdPos, enc := x.encPos
        wordA := if x.st = .dwell then BitVec.ofNat 32 n else 0, wordB := 0 }
    s.Ready → (∀ g, (s.group g).st ≠ .gathering) → x.active = some g →
    (x.cfg.countsPerStep = 0 ∨ x.acc.natAbs ≤ x.cfg.followWindow) →
    ((x.st = .dwell ∧ g.record.body = .dwell n sync) ∨
      (x.st = .waitEvent ∧ g.record.body = .wait w ∧ w.timeout = some n)) →
      (g.expiries + 1 < n → exec (.updatePeriodExpiry a) s = .next (s.modAxis a fun x => { x with
        timer := some (50 * x.cfg.updatePeriod), setupMark := false, active := some { g with expiries := g.expiries + 1 } })) ∧
      (g.expiries + 1 = n → exec (.updatePeriodExpiry a) s = exec (.updatePeriodExpiry a) rested) ∧
      (g.expiries + 1 = n → x.staging = [] → exec (.updatePeriodExpiry a) s = .next rested)

/-- R5, R7, R9, R30 and R108: at an expiry of an IDLE axis, an untagged MOVE at the front of the queue that passes its checks
becomes active, takes a general entry and opens its first period; one toward an active limit, or whose first-period rate
exceeds the jump limit, retires HALTED and halts the axis. Pulses still scheduled, which R107 leaves none of at an expiry, stay ahead of
the new ones (the model's reading, log entry 24). -/
def Obligations.MoveIsActivatedFromRest : Prop :=
  ∀ (s : State) (a : Axis) (r : AxisRecord) (rest : List AxisRecord) (m : Move),
    let x := s.axis a
    let c := x.cfg
    let first : Nat := match m.startRate with
      | some v => v
      | none => if m.delta < c.creepRate then c.creepRate else if c.maxRate < m.delta then c.maxRate else m.delta.toNat
    let limited := c.limitsOn = true ∧
      (m.dir = .forward ∧ (s.line (.limP a)).level = c.limitHigh ∨ m.dir = .reverse ∧ (s.line (.limN a)).level = c.limitHigh)
    let steps := min (first / 65536) m.steps
    let delay : Nat := if x.dirPin = (m.dir == .reverse) then 0 else 50 * c.dirSetup
    s.Ready → (∀ g, (s.group g).st ≠ .gathering) → x.st = .idle → x.held = none → x.stopReq = none →
    x.staging = r :: rest → r.body = .move m → m.sync = none →
    (∀ v, m.startRate = some v → c.creepRate ≤ v ∧ v ≤ c.maxRate) →
    (c.countsPerStep = 0 ∨ x.acc.natAbs ≤ c.followWindow) → (∃ e, s.FreeGeneral e) →
      (¬ limited → first ≤ c.jumpLimit → ∃ e, s.FreeGeneral e ∧ exec (.updatePeriodExpiry a) s = .next
        ((s.setEntry e (.reserved (.axisRecord a))).modAxis a fun x => { x with
          timer := some (50 * c.updatePeriod), st := .run, staging := rest
          active := some { record := r, entry := e, issued := 0, overrun := 0, expiries := 0 }
          rate := first, frac := first % 65536, remaining := m.steps - steps, firstMark := false, periodSteps := steps
          dir := m.dir, dirPin := (m.dir == .reverse), setupMark := (x.dirPin != (m.dir == .reverse))
          schedule := x.schedule ++ (List.range steps).map fun k => k * (50 * c.updatePeriod) / steps + delay })) ∧
      ((limited ∨ c.jumpLimit < first) → ∃ t, exec (.updatePeriodExpiry a) s = .next t ∧ (t.axis a).st = .halted ∧
        (limited → (t.axis a).cause = some (match m.dir with
          | .forward => .limitPos
          | .reverse => .limitNeg)) ∧
        (¬ limited → (t.axis a).cause = some .rateJump) ∧
        (t.axis a).rate = 0 ∧ (t.axis a).active = none ∧ (t.axis a).staging = [] ∧ (t.axis a).dirPin = x.dirPin ∧
        (∃ e q, s.FreeGeneral e ∧ t.entry e = .filled q ∧ q.tag = r.tag ∧ q.status = .halted ∧ q.wordA = 0 ∧
          t.fillQueue = s.fillQueue ++ [e, faultSlot a]) ∧
        (∃ q, t.entry (faultSlot a) = .filled q ∧ q.tag = r.tag ∧ q.flushed = rest.length))

/-- R5, R7, R11, R12, R13, R14, R16 and R17: the other records that an IDLE axis finds at the front of its queue at an expiry. A DWELL and
a WAIT that finds no latch to consume become active; FRESH clears the latch first. A MARK, a SETPOS and a WAIT that consumes its latch
complete at once: the expiry leaves what it leaves on the state in which they have completed. With an empty queue nothing is
activated, and with no general entry to be had every untagged record that is not dealt with as invalid, a MOVE among them, stays at the
front. -/
def Obligations.RecordsAreActivatedFromRest : Prop :=
  ∀ (s : State) (a : Axis),
    let x := s.axis a
    let passed : AxisBlock → AxisBlock := fun x => { x with timer := some (50 * x.cfg.updatePeriod), setupMark := false }
    s.Ready → (∀ g, (s.group g).st ≠ .gathering) → x.st = .idle → (x.cfg.countsPerStep = 0 ∨ x.acc.natAbs ≤ x.cfg.followWindow) →
      (x.staging = [] → exec (.updatePeriodExpiry a) s = .next (s.modAxis a passed)) ∧
      (∀ (r : AxisRecord) (rest : List AxisRecord), x.staging = r :: rest →
        let starts (f : AxisBlock → AxisBlock) : Prop :=
          ∃ e, s.FreeGeneral e ∧ exec (.updatePeriodExpiry a) s = .next
            ((s.setEntry e (.reserved (.axisRecord a))).modAxis a fun x => { f (passed x) with
              staging := rest, active := some { record := r, entry := e, issued := 0, overrun := 0, expiries := 0 } })
        let completes (f : AxisBlock → AxisBlock) (wordA wordB : Word) : Prop :=
          let u := s.modAxis a fun x => { f x with
            staging := rest, active := none, lastRetired := some { tag := r.tag, kind := r.kind } }
          ∃ e, s.FreeGeneral e ∧ exec (.updatePeriodExpiry a) s = exec (.updatePeriodExpiry a)
            (if r.report then u.withReport e {
              seq := 0, source := .axis a, kind := .segment, status := .ok, cause := none, echo := r.kind, flushed := 0
              ringHead := 0, tag := r.tag, time := s.time, cmd := (f x).cmdPos, enc := (f x).encPos
              wordA := wordA, wordB := wordB } else u)
        ((∀ k, r.body ≠ .invalid k) → (∀ m v, r.body = .move m → m.startRate = some v → x.cfg.creepRate ≤ v ∧ v ≤ x.cfg.maxRate) →
          r.body.sync? = none → (∀ e, ¬ s.FreeGeneral e) →
          exec (.updatePeriodExpiry a) s = .next (s.modAxis a passed)) ∧
        ((∃ e, s.FreeGeneral e) →
          (∀ n, r.body = .dwell n none → starts fun x => { x with st := .dwell }) ∧
          (∀ w, r.body = .wait w → w.policy = .fresh →
            starts fun x => { x with st := .waitEvent, latches := x.latches.set (sourceIx w.src) Latch.clear }) ∧
          (∀ w, r.body = .wait w → w.policy = .latched → (x.latch w.src).flag = false →
            starts fun x => { x with st := .waitEvent }) ∧
          (∀ w, r.body = .wait w → w.policy = .latched → (x.latch w.src).flag = true →
            completes (fun x => { x with
                latches := x.latches.set (sourceIx w.src) Latch.clear
                cmdPos := w.ref.getD x.cmdPos
                encPos := match w.ref with
                  | none => x.encPos
                  | some v => v * BitVec.ofNat 32 x.cfg.countsPerStep
                acc := match w.ref with
                  | none => x.acc
                  | some _ => 0 })
              (x.latch w.src).time (if (x.latch w.src).overrun then 1 else 0)) ∧
          (∀ cmd enc, r.body = .setpos cmd enc →
            completes (fun x => { x with
                cmdPos := cmd.getD x.cmdPos, encPos := enc.getD x.encPos, acc := if enc.isSome then 0 else x.acc }) 0 0) ∧
          (r.body = .mark → completes (fun x => x) 0 0)))

/-- R5, R8 and R59: a record marked invalid, or a MOVE, tagged or not, whose start rate lies outside the creep rate and the maximum
rate, at the front of an IDLE axis's queue halts the axis with RECORD_INVALID, whether or not a general entry is free, and the flush
counts it as the oldest record. -/
def Obligations.InvalidFrontRecordHalts : Prop :=
  ∀ (s : State) (a : Axis) (r : AxisRecord) (rest : List AxisRecord),
    let x := s.axis a
    s.Ready → (∀ g, (s.group g).st ≠ .gathering) → x.st = .idle → x.active = none → x.held = none → x.stopReq = none →
    x.staging = r :: rest →
    ((∃ kind, r.body = .invalid kind) ∨
      (∃ m v, r.body = .move m ∧ m.startRate = some v ∧ (v < x.cfg.creepRate ∨ x.cfg.maxRate < v))) →
    (x.cfg.countsPerStep = 0 ∨ x.acc.natAbs ≤ x.cfg.followWindow) →
      ∃ t, exec (.updatePeriodExpiry a) s = .next t ∧ (t.axis a).st = .halted ∧
        (t.axis a).cause = some .recordInvalid ∧ (t.axis a).staging = [] ∧ t.fillQueue = s.fillQueue ++ [faultSlot a] ∧
        t.entry (faultSlot a) = .filled {
          seq := 0, source := .axis a, kind := .fault, status := .halted, cause := some .recordInvalid
          echo := match r.body with
            | .invalid kind => kind
            | _ => 0x01
          flushed := rest.length + 1, ringHead := (s.fetcher (axisRing a)).head, tag := r.tag, time := s.time
          cmd := x.cmdPos, enc := x.encPos, wordA := (((r :: rest).map AxisRecord.tag).getLast?).getD 0, wordB := 0 } ∧
        (∀ e, e ≠ faultSlot a → t.entry e = s.entry e) ∧ (∀ b, b ≠ a → t.axis b = s.axis b)

/-- R70, R71, R78 and Table 4-3: a sync-tagged record at the front of an IDLE axis's queue. One that names a FREE group, or a group of
which the axis is no member, halts the axis with RECORD_INVALID, one that names a BROKEN group with SYNC_BROKEN, each counted by the
flush as the oldest record. One that finds no general entry waits. Else the axis arrives and holds it in WAIT_SYNC. Stated for a
gathering with no timeout, and for an arrival that does not complete the set. -/
def Obligations.TaggedFrontRecordIsJudged : Prop :=
  ∀ (s : State) (a : Axis) (g : GroupIx) (r : AxisRecord) (rest : List AxisRecord),
    let x := s.axis a
    let y := s.group g
    let halts (cause : FaultCause) : Prop :=
      ∃ t, exec (.updatePeriodExpiry a) s = .next t ∧ (t.axis a).st = .halted ∧ (t.axis a).cause = some cause ∧
        (t.axis a).staging = [] ∧ (t.axis a).held = none ∧ t.fillQueue = s.fillQueue ++ [faultSlot a] ∧
        t.entry (faultSlot a) = .filled {
          seq := 0, source := .axis a, kind := .fault, status := .halted, cause := some cause, echo := r.kind
          flushed := rest.length + 1, ringHead := (s.fetcher (axisRing a)).head, tag := r.tag, time := s.time
          cmd := x.cmdPos, enc := x.encPos, wordA := (((r :: rest).map AxisRecord.tag).getLast?).getD 0, wordB := 0 } ∧
        (∀ e, e ≠ faultSlot a → t.entry e = s.entry e) ∧ (∀ b, b ≠ a → t.axis b = s.axis b) ∧ t.groups = s.groups
    s.Ready → (∀ k, k ≠ g → (s.group k).st ≠ .gathering) → (y.st = .gathering → y.timeout = none) → x.st = .idle →
    x.active = none → x.held = none → x.stopReq = none → x.staging = r :: rest →
    ((∃ n, r.body = .dwell n (some g)) ∨ (∃ m, r.body = .move m ∧ m.sync = some g ∧
      ∀ v, m.startRate = some v → x.cfg.creepRate ≤ v ∧ v ≤ x.cfg.maxRate)) →
    (x.cfg.countsPerStep = 0 ∨ x.acc.natAbs ≤ x.cfg.followWindow) →
      (y.st = .free ∨ setHas y.members a = false → halts .recordInvalid) ∧
      (y.st = .broken → setHas y.members a = true → halts .syncBroken) ∧
      ((y.st = .armed ∨ y.st = .gathering) → setHas y.members a = true → (∀ e, ¬ s.FreeGeneral e) →
        exec (.updatePeriodExpiry a) s = .next
          (s.modAxis a fun x => { x with timer := some (50 * x.cfg.updatePeriod), setupMark := false })) ∧
      ((y.st = .armed ∨ y.st = .gathering) → setHas y.members a = true → (∃ e, s.FreeGeneral e) →
        setInsert y.arrived a ≠ y.members → ∃ e, s.FreeGeneral e ∧ exec (.updatePeriodExpiry a) s = .next
          (((s.setEntry e (.reserved (.heldSync a))).modAxis a fun x => { x with
            timer := some (50 * x.cfg.updatePeriod), setupMark := false, st := .waitSync, staging := rest
            held := some { record := r, group := g, entry := e } }).modGroup g fun y => { y with
            st := .gathering, arrived := setInsert y.arrived a, count := if y.st = .armed then 0 else y.count }))

/-! ### Groups at an expiry -/

/-- R71, R72 and R73: the arrival that completes the arrived set releases the group, which is ARMED again or FREE. Every member leaves
WAIT_SYNC with its timer restarted: a DWELL becomes active, a MOVE that passes the checks of its activation becomes active and opens its
first period from a fraction of 0, and a MOVE that fails one retires HALTED and halts its axis alone, with the cause of the limit or
RATE_JUMP, while the others run. Stated for members whose entries are general ones, with no stop request pending. -/
def Obligations.ArrivalReleasesTheGroup : Prop :=
  ∀ (s : State) (a : Axis) (g : GroupIx) (r : AxisRecord) (rest : List AxisRecord),
    let x := s.axis a
    let first (b : Axis) (m : Move) : Nat := match m.startRate with
      | some v => v
      | none =>
        let c := (s.axis b).cfg
        if m.delta < c.creepRate then c.creepRate else if c.maxRate < m.delta then c.maxRate else m.delta.toNat
    let limited (b : Axis) (m : Move) : Prop := (s.axis b).cfg.limitsOn = true ∧
      (m.dir = .forward ∧ (s.line (.limP b)).level = (s.axis b).cfg.limitHigh ∨
        m.dir = .reverse ∧ (s.line (.limN b)).level = (s.axis b).cfg.limitHigh)
    let passes (b : Axis) (m : Move) : Prop := ¬ limited b m ∧ first b m ≤ (s.axis b).cfg.jumpLimit
    let record (b : Axis) : Option AxisRecord := if b = a then some r else (s.axis b).held.map Held.record
    s.Ready → (∀ k, k ≠ g → (s.group k).st ≠ .gathering) → x.st = .idle → x.held = none → x.stopReq = none → x.staging = r :: rest →
    ((∃ n, r.body = .dwell n (some g)) ∨ (∃ m, r.body = .move m ∧ m.sync = some g ∧
      ∀ v, m.startRate = some v → x.cfg.creepRate ≤ v ∧ v ≤ x.cfg.maxRate)) →
    (x.cfg.countsPerStep = 0 ∨ x.acc.natAbs ≤ x.cfg.followWindow) → (∃ e, s.FreeGeneral e) →
    (s.group g).st = .gathering → setHas (s.group g).arrived a = false →
    setInsert (s.group g).arrived a = (s.group g).members →
    (∀ b, setHas (s.group g).arrived b = true → (s.axis b).stopReq = none ∧ ∃ h, (s.axis b).held = some h ∧ h.entry.val < 16 ∧
      ((∃ n k, h.record.body = .dwell n k) ∨ ∃ m, h.record.body = .move m)) →
      ∃ t, exec (.updatePeriodExpiry a) s = .next t ∧
        (∀ b, setHas (s.group g).members b = true →
          (t.axis b).held = none ∧ (t.axis b).timer = some (50 * (s.axis b).cfg.updatePeriod) ∧
          ∃ q, record b = some q ∧
            (((∃ n k, q.body = .dwell n k) ∨ ∃ m, q.body = .move m ∧ passes b m) →
              ∃ sg, (t.axis b).active = some sg ∧ sg.record = q ∧ sg.issued = 0 ∧ sg.expiries = 0) ∧
            (∀ n k, q.body = .dwell n k → (t.axis b).st = .dwell) ∧
            (∀ m, q.body = .move m → passes b m → (t.axis b).st = .run ∧ (t.axis b).rate = first b m ∧
              (t.axis b).frac = first b m % 65536 ∧ (t.axis b).dir = m.dir ∧
              (t.axis b).periodSteps = min (first b m / 65536) m.steps ∧
              (t.axis b).remaining = m.steps - min (first b m / 65536) m.steps) ∧
            (∀ m, q.body = .move m → ¬ passes b m → (t.axis b).st = .halted ∧ (t.axis b).active = none ∧
              (t.axis b).staging = [] ∧ (t.axis b).rate = 0 ∧ (t.axis b).dirPin = (s.axis b).dirPin ∧
              (limited b m → (t.axis b).cause = some (match m.dir with
                | .forward => .limitPos
                | .reverse => .limitNeg)) ∧
              (¬ limited b m → (t.axis b).cause = some .rateJump) ∧
              ∃ f, t.entry (faultSlot b) = .filled f ∧ f.tag = q.tag ∧ f.cause = (t.axis b).cause)) ∧
        (∀ b, setHas (s.group g).members b = false → t.axis b = s.axis b) ∧
        t.group g = (if (s.group g).reusable then
          { s.group g with st := .armed, arrived := 0, count := 0, gen := (s.group g).gen + 1 } else Group.reset) ∧
        (∀ k, k ≠ g → t.group k = s.group k)

/-- R75, R76 and R77: the expiry of the lowest-numbered member that brings a gathering's count to its timeout breaks the group:
every arrived member halts with SYNC_BROKEN. Below the timeout the group only counts. That an expiry taken at the instant of the first
arrival, which the expiry of another axis made, counts too is the model's choice (log entry 35, DESIGN CHOICE: R75 reads both ways). -/
def Obligations.GroupBreaksAtItsTimeout : Prop :=
  ∀ (s : State) (a : Axis) (g : GroupIx) (n : Nat),
    let x := s.axis a
    s.Ready → (∀ k, k ≠ g → (s.group k).st ≠ .gathering) → (s.group g).st = .gathering →
    (s.group g).timeout = some n → setHas (s.group g).members a = true →
    (∀ b, b < a → setHas (s.group g).members b = false) →
    (x.st = .waitSync ∨ x.st = .idle ∧ x.staging = []) → (x.cfg.countsPerStep = 0 ∨ x.acc.natAbs ≤ x.cfg.followWindow) →
    (∀ b, setHas (s.group g).arrived b = true → (s.axis b).held ≠ none) →
      ((s.group g).count + 1 < n → exec (.updatePeriodExpiry a) s = .next
        ((s.modAxis a fun x => { x with timer := some (50 * x.cfg.updatePeriod), setupMark := false }).modGroup g fun y =>
          { y with count := y.count + 1 })) ∧
      ((s.group g).count + 1 = n → ∃ t, exec (.updatePeriodExpiry a) s = .next t ∧
        t.group g = { s.group g with st := .broken, arrived := 0, count := 0 } ∧ (∀ k, k ≠ g → t.group k = s.group k) ∧
        (∀ b, setHas (s.group g).arrived b = true →
          (t.axis b).st = .halted ∧ (t.axis b).cause = some .syncBroken ∧ (t.axis b).held = none ∧ (t.axis b).staging = []) ∧
        (∀ b, setHas (s.group g).arrived b = false → b ≠ a → t.axis b = s.axis b))

/-! ### Pulses -/

/-- R20, R103, R107 and R109: the first pulse of the schedule begins and counts on the commanded position, the accumulator and the
active MOVE; at the end of its width STEP is low. With nothing scheduled no pulse begins (the model's choice, log entry 5). -/
def Obligations.PulsesCountAsTheyBegin : Prop :=
  ∀ (s : State) (a : Axis),
    let x := s.axis a
    let k : Int := x.cfg.countsPerStep
    let sum : Int := if x.dir = .forward then x.acc + k else x.acc - k
    (x.schedule = [] → exec (.stepPulseIssue a) s = .next s) ∧
    (∀ n rest g m, x.schedule = n :: rest → x.active = some g → g.record.body = .move m →
      exec (.stepPulseIssue a) s = .next (s.modAxis a fun x => { x with
        schedule := rest, pulse := some (50 * x.cfg.pulseWidth)
        cmdPos := if x.dir = .forward then x.cmdPos + 1 else x.cmdPos - 1
        acc := max (-2147483647) (min 2147483647 sum)
        active := some { g with
          issued := if g.issued < m.steps then g.issued + 1 else g.issued
          overrun := if g.issued < m.steps then g.overrun else g.overrun + 1 } })) ∧
    exec (.stepPulseEnd a) s = .next (s.modAxis a fun x => { x with pulse := none })

/-! ### Inputs -/

/-- R88, R89 and R90: a qualified limit edge. Where it makes active a limit toward which the axis moves, the axis halts and the
pulses not yet begun are withheld; otherwise the line's level changes and nothing else. That this holds too of an edge taken after an
ABORT_AXIS, or a STOP_AXIS that rests at once, of the same instant, which finds the axis IDLE, is the model's choice (log entry 36,
DESIGN CHOICE: R90 says so, and R93 sends to the pattern of R55, by which the axis halts from IDLE). -/
def Obligations.LimitEdgeHaltsTowardTheLimit : Prop :=
  ∀ (s : State) (a : Axis) (side : Side) (high : Bool),
    let x := s.axis a
    let line : Line := match side with
      | .pos => .limP a
      | .neg => .limN a
    let stops := x.cfg.limitsOn = true ∧ high = x.cfg.limitHigh ∧ (x.st = .run ∨ x.st = .rampDown) ∧
      x.dir = (match side with
        | .pos => Dir.forward
        | .neg => Dir.reverse)
    let moved := s.setLine line { level := high, run := 0, sampled := true }
    s.Ready →
      (¬ stops → exec (.limitEdge a side high) s = .next moved) ∧
      (stops → ∃ t, exec (.limitEdge a side high) s = .next t ∧ t.lines = moved.lines ∧
        (t.axis a).st = .halted ∧
        (t.axis a).cause = some (match side with
          | .pos => .limitPos
          | .neg => .limitNeg) ∧
        (t.axis a).rate = 0 ∧ (t.axis a).frac = 0 ∧ (t.axis a).periodSteps = 0 ∧ (t.axis a).schedule = [] ∧
        (t.axis a).pulse = x.pulse ∧ (t.axis a).cmdPos = x.cmdPos ∧ (t.axis a).encPos = x.encPos ∧ (t.axis a).acc = x.acc ∧
        (t.axis a).active = none ∧ (t.axis a).staging = [] ∧ (t.axis a).stopReq = none ∧
        (∃ r, t.entry (faultSlot a) = .filled r ∧ r.cmd = x.cmdPos ∧ r.cause = (t.axis a).cause) ∧
        (∀ b, b ≠ a → t.axis b = s.axis b) ∧ t.groups = s.groups)

/-- R99 and Table 6-2: a qualified edge of one quadrature line from the pair the unit last took. The forward cycle is 00, 10, 11,
01 (A first); the count is added to the encoder position and taken from the accumulator, with the sign exchanged under INVERTED.
R101: edges of both lines on one sample are counted as a quadrature error and give no count. With feedback, an axis at rest or
moving halts with ENCODER, out of WAIT_SYNC with its held record retired HALTED and the gathering broken (R76); in OFF, in HALTED and
without feedback nothing else follows (outside QUIESCING and FAILED). -/
def Obligations.QuadratureCountsAndErrors : Prop :=
  ∀ (s : State) (a : Axis) (line : QuadLine) (high : Bool),
    let x := s.axis a
    let pair : Bool × Bool := match line with
      | .a => (high, (s.line (.encB a)).level)
      | .b => ((s.line (.encA a)).level, high)
    let succ : Bool × Bool → Bool × Bool := fun p => (! p.2, p.1)
    let old := (x.quadA, x.quadB)
    let moved := s.setLine (match line with
      | .a => .encA a
      | .b => .encB a) { level := high, run := 0, sampled := true }
    let result (c : Int) : State := moved.modAxis a fun x => { x with
      encPos := x.encPos + BitVec.ofInt 32 c, acc := max (-2147483647) (min 2147483647 (x.acc - c))
      quadA := pair.1, quadB := pair.2 }
    let lines := (s.setLine (.encA a) { level := ! (s.line (.encA a)).level, run := 0, sampled := true }).setLine (.encB a)
      { level := ! (s.line (.encB a)).level, run := 0, sampled := true }
    let errs := if x.quadErrs < 255 then x.quadErrs + 1 else x.quadErrs
    (old = succ pair → exec (.encoderTransition a line high) s = .next (result (if x.cfg.inverted then 1 else -1))) ∧
    (pair = succ old → exec (.encoderTransition a line high) s = .next (result (if x.cfg.inverted then -1 else 1))) ∧
    (s.dev ≠ .quiescing → s.dev ≠ .failed → s.interp = .waiting →
      (x.cfg.countsPerStep = 0 ∨ x.st = .off ∨ x.st = .halted →
        exec (.quadratureError a) s = .next (lines.modAxis a fun x => { x with
          quadErrs := errs, quadA := ! (s.line (.encA a)).level, quadB := ! (s.line (.encB a)).level })) ∧
      (x.cfg.countsPerStep ≠ 0 → x.st ≠ .off → x.st ≠ .halted → x.st ≠ .waitSync →
        ∃ t, exec (.quadratureError a) s = .next t ∧ t.lines = lines.lines ∧ (t.axis a).st = .halted ∧
          (t.axis a).cause = some .encoder ∧ (t.axis a).quadErrs = errs ∧ (t.axis a).cmdPos = x.cmdPos ∧ (t.axis a).encPos = x.encPos ∧
          (t.axis a).acc = x.acc ∧ (t.axis a).schedule = [] ∧ (t.axis a).active = none ∧ (t.axis a).staging = [] ∧
          (∀ b, b ≠ a → t.axis b = s.axis b)) ∧
      (∀ h, x.cfg.countsPerStep ≠ 0 → s.Gathers a h → ∃ t, exec (.quadratureError a) s = .next t ∧ t.lines = lines.lines ∧
        HaltedFromGathering s t a h .encoder ∧ (t.axis a).quadErrs = errs ∧ (t.axis a).acc = x.acc))

/-- R85, R86 and R95: an event reaches the latches of every axis whose sources its line feeds, and no other latch; a clear latch
takes the time, a set one the overrun flag. Stated for axes with no WAIT in progress and no capture armed. -/
def Obligations.EventSetsTheLatchesItFeeds : Prop :=
  ∀ (s : State) (line : EventLine),
    let feeds (a : Axis) (src : Source) : Bool := match src, line with
      | .index, .encI b => b == a && (s.axis a).cfg.indexSrc == .own
      | .index, .trg m => (s.axis a).cfg.indexSrc == .trg m
      | .home, .home b => b == a && (s.axis a).cfg.homeSrc == .own
      | .home, .trg m => (s.axis a).cfg.homeSrc == .trg m
      | .trg k, .trg m => k == m
      | _, _ => false
    s.dev ≠ .quiescing → s.dev ≠ .failed → s.interp = .waiting →
    (∀ a, (s.axis a).st ≠ .waitEvent ∧ (s.axis a).arm.armed = false) →
      ∃ t, exec (.event line) s = .next t ∧
        (∀ a, t.axis a = { s.axis a with latches := (t.axis a).latches }) ∧
        (∀ a src, (t.axis a).latch src =
          if feeds a src then
            if ((s.axis a).latch src).flag then { (s.axis a).latch src with overrun := true }
            else { flag := true, overrun := false, time := s.time }
          else (s.axis a).latch src) ∧
        t = { s.setLine (eventLine line) {
            level := ! s.inputs.polarity.getLsbD (polarityIx line), run := 0, sampled := true } with
          axes := t.axes, freeCount := t.freeCount }

/-- R13 and R14: in WAIT_EVENT the event of the WAIT's source completes it at that instant. Stated for a trigger event, with no
other WAIT on that trigger and no capture armed, the latch clear and the report flag set. -/
def Obligations.EventCompletesTheWait : Prop :=
  ∀ (s : State) (a : Axis) (m : Fin 4) (g : Segment) (w : Wait),
    let x := s.axis a
    s.Ready → x.st = .waitEvent → x.active = some g → g.record.body = .wait w → w.src = .trg m → g.record.report = true →
    x.cfg.indexSrc = .own → x.cfg.homeSrc = .own → (x.latch (.trg m)).flag = false →
    (∀ b, b ≠ a → (s.axis b).st ≠ .waitEvent) → (∀ b, (s.axis b).arm.armed = false) →
      ∃ t, exec (.event (.trg m)) s = .next t ∧ (t.axis a).st = .idle ∧ (t.axis a).active = none ∧
        (t.axis a).latch (.trg m) = Latch.clear ∧ (t.axis a).staging = x.staging ∧
        (t.axis a).timer = x.timer ∧
        (t.axis a).cmdPos = w.ref.getD x.cmdPos ∧
        (t.axis a).encPos = (match w.ref with
          | none => x.encPos
          | some v => v * BitVec.ofNat 32 x.cfg.countsPerStep) ∧
        (t.axis a).acc = (match w.ref with
          | none => x.acc
          | some _ => 0) ∧
        t.fillQueue = s.fillQueue ++ [g.entry] ∧
        t.entry g.entry = .filled {
          seq := 0, source := .axis a, kind := .segment, status := .ok, cause := none, echo := 0x03, flushed := 0
          ringHead := 0, tag := g.record.tag, time := s.time, cmd := (t.axis a).cmdPos, enc := (t.axis a).encPos
          wordA := s.time, wordB := 0 }

/-- R116 and R117: an event of the armed source is captured where a general entry can be reserved, and missed where none can.
Stated for a trigger event and a single armed axis with no WAIT in progress. -/
def Obligations.ArmedEventIsCapturedOrMissed : Prop :=
  ∀ (s : State) (a : Axis) (m : Fin 4),
    let x := s.axis a
    let left := x.arm.remaining.map fun n => n - 1
    s.Ready → x.arm.armed = true → x.arm.source = .trg m → x.cfg.indexSrc = .own → x.cfg.homeSrc = .own →
    (∀ b, b ≠ a → (s.axis b).arm.armed = false) → (∀ b, (s.axis b).st ≠ .waitEvent) →
      ((∃ e, s.FreeGeneral e) → ∃ e t, s.FreeGeneral e ∧ exec (.event (.trg m)) s = .next t ∧
        (t.axis a).arm = { x.arm with missed := 0, remaining := left, armed := decide (left ≠ some 0) } ∧
        t.fillQueue = s.fillQueue ++ [e] ∧
        t.entry e = .filled {
          seq := 0, source := .axis a, kind := .capture, status := .ok, cause := none, echo := 0x19, flushed := 0
          ringHead := 0, tag := x.arm.tag, time := s.time, cmd := x.cmdPos, enc := x.encPos
          wordA := BitVec.ofNat 32 x.arm.missed, wordB := captureWord (t.axis a).arm } ∧
        (t.axis a).st = x.st ∧ (t.axis a).cmdPos = x.cmdPos) ∧
      ((∀ e, ¬ s.FreeGeneral e) → ∃ t, exec (.event (.trg m)) s = .next t ∧
        (t.axis a).arm = { x.arm with missed := if x.arm.missed < 255 then x.arm.missed + 1 else x.arm.missed } ∧
        t.fillQueue = s.fillQueue ∧ t.entries = s.entries)

/-- R82, R84, R85, R101 and Table 5-3: at a sample of its class each line compares the sampled level with its qualified level; the
first sample after a reset is taken with no edge. No line of the other class, no setting and, where no line qualifies, no axis changes,
but for the quadrature state that takes its first levels (R98). A line that qualifies delivers its edge: where it alone does, or the
two quadrature lines of an axis do, the sample leaves what the command of that edge leaves. -/
def Obligations.SampleQualifiesEachLine : Prop :=
  ∀ (s : State) (cls : FilterClass) (levels : BitVec 28),
    let depth := match cls with
      | .fast => s.inputs.fastDepth
      | .slow => s.inputs.slowDepth
    let inClass : Line → Bool := fun l => match l with
      | .encA _ => cls == .fast
      | .encB _ => cls == .fast
      | .encI _ => cls == .fast
      | .limP _ => cls == .slow
      | .limN _ => cls == .slow
      | .home _ => cls == .slow
      | .trg _ => cls == .slow
    let bit : Line → Bool := fun l => levels.getLsbD (lineIx l).val
    let qualifies : Line → Prop := fun l => inClass l = true ∧ (s.line l).sampled = true ∧ bit l ≠ (s.line l).level ∧
      (s.line l).run + 1 = depth
    let event (l : EventLine) : Option Instr :=
      if bit (eventLine l) = ! s.inputs.polarity.getLsbD (polarityIx l) then some (.event l) else none
    let command : Line → Option Instr := fun l => match l with
      | .encA a => some (.encoderTransition a .a (bit l))
      | .encB a => some (.encoderTransition a .b (bit l))
      | .encI a => event (.encI a)
      | .limP a => some (.limitEdge a .pos (bit l))
      | .limN a => some (.limitEdge a .neg (bit l))
      | .home a => event (.home a)
      | .trg m => event (.trg m)
    s.interp = .waiting →
      ∃ t, exec (.qualifierSample cls levels) s = .next t ∧ t.inputs = s.inputs ∧ t.pending = s.pending ∧
        (∀ l, inClass l = false → t.line l = s.line l) ∧
        (∀ l, inClass l = true →
          ((s.line l).sampled = false → t.line l = { level := bit l, run := 0, sampled := true }) ∧
          ((s.line l).sampled = true → bit l = (s.line l).level → t.line l = { s.line l with run := 0 }) ∧
          ((s.line l).sampled = true → bit l ≠ (s.line l).level → (s.line l).run + 1 = depth →
            t.line l = { level := bit l, run := 0, sampled := true }) ∧
          ((s.line l).sampled = true → bit l ≠ (s.line l).level → (s.line l).run + 1 ≠ depth →
            t.line l = { s.line l with run := (s.line l).run + 1 })) ∧
        (s.dev ≠ .quiescing → s.dev ≠ .failed →
          (∀ l, inClass l = true → (s.line l).sampled = true ∧ (bit l = (s.line l).level ∨ (s.line l).run + 1 ≠ depth)) →
          t.axes = s.axes ∧ t.entries = s.entries ∧ t.fillQueue = s.fillQueue) ∧
        (s.Ready → (∀ l, inClass l = true → (s.line l).sampled = true) →
          let before : State := { s with
            pins := t.pins, fastDue := t.fastDue, slowDue := t.slowDue, lines := t.lines, freeCount := s.freeCount + 1 }
          (∀ l, qualifies l → (∀ k, qualifies k → k = l) →
            (∀ c, command l = some c → ∃ v, exec c (before.setLine l (s.line l)) = .next v ∧
              t = { v with freeCount := v.freeCount + 1 }) ∧
            (command l = none → t = { before with freeCount := s.freeCount + 2 })) ∧
          (∀ a, qualifies (.encA a) → qualifies (.encB a) → (∀ k, qualifies k → k = .encA a ∨ k = .encB a) →
            ∃ v, exec (.quadratureError a)
                ((before.setLine (.encA a) (s.line (.encA a))).setLine (.encB a) (s.line (.encB a))) = .next v ∧
              t = { v with freeCount := v.freeCount + 1 }))

/-! ### Control records -/

/-- R157 and R158: CONFIGURE_AXIS. For an axis in OFF a record that passes the twelve checks of Table 10-4 replaces the whole
configuration, and one that fails completes with the number of the first check that fails; out of OFF it is refused. R83 and R87:
CONFIGURE_INPUTS. With every axis OFF the settings are replaced, every run becomes 0 and every level is kept, and a changed interval
starts the slow clock again; with an axis out of OFF it is refused; out of range it completes INVALID. -/
def Obligations.ConfigurationReplacesOrRefuses : Prop :=
  (∀ (s : State) (a : Axis) (tag : Word) (c : AxisConfig),
    let checks : List Prop := [
      10 ≤ c.updatePeriod ∧ c.updatePeriod ≤ 2000, 1 ≤ c.maxRate ∧ c.maxRate ≤ 262144, 1 ≤ c.creepRate ∧ c.creepRate ≤ 262144,
      1 ≤ c.jumpLimit ∧ c.jumpLimit ≤ 262144, 1 ≤ c.stopDecel ∧ c.stopDecel ≤ 262144, c.countsPerStep ≤ 64,
      1 ≤ c.followWindow ∧ c.followWindow ≤ 65535, 1 ≤ c.pulseWidth ∧ c.pulseWidth ≤ 8, 1 ≤ c.dirSetup ∧ c.dirSetup ≤ 50,
      c.creepRate ≤ c.maxRate, 8 * c.pulseWidth ≤ c.updatePeriod, 4 * (c.dirSetup + c.pulseWidth) ≤ c.updatePeriod]
    s.Ready → (∃ e, s.FreeGeneral e) →
      ((s.axis a).st ≠ .off → ∃ e, s.FreeGeneral e ∧ exec (.configureAxis a tag c) s = .next
        (s.withReport e (ctlReport s (some a) tag 0x10 .notAllowed 0 0 0 0))) ∧
      ((s.axis a).st = .off → (∀ p ∈ checks, p) → ∃ e, s.FreeGeneral e ∧ exec (.configureAxis a tag c) s = .next
        ((s.modAxis a fun x => { x with cfg := c, decel := c.stopDecel }).withReport e
          (ctlReport s (some a) tag 0x10 .ok 0 0 0 0))) ∧
      (∀ (n : Nat) (p : Prop), (s.axis a).st = .off → checks[n]? = some p → ¬ p →
        (∀ k < n, ∀ q, checks[k]? = some q → q) →
        ∃ e, s.FreeGeneral e ∧ exec (.configureAxis a tag c) s = .next
          (s.withReport e (ctlReport s (some a) tag 0x10 .invalidConfig 0 0 (BitVec.ofNat 32 (n + 1)) 0)))) ∧
  (∀ (s : State) (tag : Word) (c : InputsConfig),
    let ok := (1 ≤ c.fastDepth ∧ c.fastDepth ≤ 7) ∧ (1 ≤ c.slowInterval ∧ c.slowInterval ≤ 1000) ∧
      (2 ≤ c.slowDepth ∧ c.slowDepth ≤ 15)
    s.Ready → (∃ e, s.FreeGeneral e) →
      (¬ ok → ∃ e, s.FreeGeneral e ∧ exec (.configureInputs tag c) s = .next
        (s.withReport e (ctlReport s none tag 0x11 .invalid 0 0 0 0))) ∧
      (ok → (∃ a, (s.axis a).st ≠ .off) → ∃ e, s.FreeGeneral e ∧ exec (.configureInputs tag c) s = .next
        (s.withReport e (ctlReport s none tag 0x11 .notAllowed 0 0 0 0))) ∧
      (ok → (∀ a, (s.axis a).st = .off) → ∃ e t, s.FreeGeneral e ∧ exec (.configureInputs tag c) s = .next t ∧
        t = { s.withReport e (ctlReport s none tag 0x11 .ok 0 0 0 0) with
          inputs := c, lines := t.lines, slowClock := t.slowClock, slowDue := t.slowDue } ∧
        (∀ l, t.line l = { s.line l with run := 0 }) ∧
        (c.slowInterval = s.inputs.slowInterval → t.slowClock = s.slowClock ∧ t.slowDue = s.slowDue) ∧
        (c.slowInterval ≠ s.inputs.slowInterval → t.slowClock = 50 * c.slowInterval ∧ t.slowDue = false)))

/-- R2, R21 and R170: ENABLE_AXIS. In ONLINE it takes an axis in OFF to IDLE and is refused elsewhere. Accepted in QUIESCING with
every axis OFF it completes OK, and the axis is OFF again at that instant. R3: DISABLE_AXIS from IDLE, or from HALTED with its FAULT
report written, takes the axis to OFF; with it unwritten it completes REPORT_PENDING, and in every other state NOT_ALLOWED. -/
def Obligations.EnableAndDisableAxis : Prop :=
  (∀ (s : State) (a : Axis) (tag : Word), s.interp = .waiting → (∃ e, s.FreeGeneral e) →
    (s.dev = .online → (s.axis a).st = .off → ∃ e, s.FreeGeneral e ∧ exec (.enableAxis a tag) s = .next
      ((s.modAxis a fun x => { x with
        st := .idle, latches := Vector.replicate 6 Latch.clear, acc := 0, quadErrs := 0
        timer := some (50 * x.cfg.updatePeriod), en := true, lastRetired := none }).withReport e
        (ctlReport s (some a) tag 0x12 .ok 0 0 0 0))) ∧
    (s.dev = .online → (s.axis a).st ≠ .off → ∃ e, s.FreeGeneral e ∧ exec (.enableAxis a tag) s = .next
      (s.withReport e (ctlReport s (some a) tag 0x12 .notAllowed 0 0 0 0))) ∧
    (s.dev = .quiescing → (∀ b, (s.axis b).st = .off) →
      ∃ e t, s.FreeGeneral e ∧ exec (.enableAxis a tag) s = .next t ∧ t.dev = .quiescing ∧ t.interp = .waiting ∧
        (∀ b, (t.axis b).st = .off) ∧ (t.axis a).en = false ∧ (t.axis a).timer = none ∧ (t.axis a).acc = 0 ∧
        t.entry e = .filled (ctlReport s (some a) tag 0x12 .ok 0 0 0 0) ∧ t.fillQueue = s.fillQueue ++ [e])) ∧
  (∀ (s : State) (a : Axis) (tag : Word),
    let x := s.axis a
    let refused (st : Status) (e : Fin 24) : State := s.withReport e (ctlReport s (some a) tag 0x13 st 0 0 0 0)
    s.Ready → (∃ e, s.FreeGeneral e) →
      (x.st = .idle ∨ x.st = .halted ∧ s.entry (faultSlot a) = .free → ∃ e, s.FreeGeneral e ∧
        exec (.disableAxis a tag) s = .next (((s.modAxis a fun x => { x with
          st := .off, staging := [], timer := none, en := false, cause := none, further := 0
          arm := { x.arm with armed := false } }).modFetcher (axisRing a) Fetcher.setHead).withReport e
          (ctlReport s (some a) tag 0x13 .ok x.staging.length (s.fetcher (axisRing a)).tail
            (((x.staging.map AxisRecord.tag).getLast?).getD 0) (BitVec.ofNat 32 x.further)))) ∧
      (x.st = .halted → s.entry (faultSlot a) ≠ .free →
        ∃ e, s.FreeGeneral e ∧ exec (.disableAxis a tag) s = .next (refused .reportPending e)) ∧
      (x.st ≠ .idle → x.st ≠ .halted →
        ∃ e, s.FreeGeneral e ∧ exec (.disableAxis a tag) s = .next (refused .notAllowed e)))

/-- R42, R46, R47, R48, R56 and R58: STOP_AXIS for an axis in RUN, or in RAMP_DOWN under a quiesce with no request pending, puts it in
RAMP_DOWN at the deceleration of the record or the configured one, with a pending request, in its stop slot where that is FREE and a
general entry where not; for an axis in RAMP_DOWN with a pending request it takes the request over. -/
def Obligations.StopAxisRampsAMovingAxis : Prop :=
  ∀ (s : State) (a : Axis) (tag : Word) (d : Option Nat),
    let x := s.axis a
    let decel := d.getD x.cfg.stopDecel
    let ramp (e : Fin 24) (superseded : Word) : State :=
      (s.modAxis a fun x => { x with
        st := .rampDown, decel := decel
        stopReq := some { kind := .stop, tag := tag, entry := e, superseded := superseded } }).setEntry e
        (.reserved (.stopRequest a))
    (s.dev = .online ∨ s.dev = .quiescing) → s.interp = .waiting → (∀ v, d = some v → 1 ≤ v ∧ v ≤ 262144) →
    (x.st = .run ∨ x.st = .rampDown) →
      (x.stopReq = none → s.entry (stopSlot a) = .free → exec (.stopAxis a tag d) s = .next (ramp (stopSlot a) 0)) ∧
      (x.stopReq = none → s.entry (stopSlot a) ≠ .free → (∃ e, s.FreeGeneral e) →
        ∃ e, s.FreeGeneral e ∧ exec (.stopAxis a tag d) s = .next (ramp e 0)) ∧
      (∀ q, x.st = .rampDown → x.stopReq = some q → exec (.stopAxis a tag d) s = .next (ramp q.entry q.tag))

/-- R47, R49, R51, R58, R76, R77 and R130: STOP_AXIS, with a deceleration or without, and ABORT_AXIS for an axis in IDLE, DWELL,
WAIT_EVENT or WAIT_SYNC reach the rest instant at once: the active or held record retires STOPPED or ABORTED, the queue is flushed, the
head set, and the request's report follows, in the stop slot where it is FREE and in a general entry where not. So they do under a
quiesce while another axis moves. Out of WAIT_SYNC the axis departs from its gathering, which breaks: every other arrived member halts
with SYNC_BROKEN. That the reports of those members follow the request's own is read from R51 and R76 (log entry 16, DEDUCED). In OFF
and HALTED both are refused. -/
def Obligations.StopAndAbortOfAnAxisAtRest : Prop :=
  ∀ (s : State) (a : Axis) (tag : Word) (abort : Bool) (d : Option Nat),
    let x := s.axis a
    let c : Instr := if abort then .abortAxis a tag else .stopAxis a tag d
    let kind : BitVec 5 := if abort then 0x15 else 0x14
    let takes (e : Fin 24) : Prop := if s.entry (stopSlot a) = .free then e = stopSlot a else s.FreeGeneral e
    let retired (id : RecId) (w : Word × Word) : Report := {
      seq := 0, source := .axis a, kind := .segment, status := if abort then .aborted else .stopped, cause := none, echo := id.kind
      flushed := 0, ringHead := 0, tag := id.tag, time := s.time, cmd := x.cmdPos, enc := x.encPos, wordA := w.1, wordB := w.2 }
    let request : Report := ctlReport s (some a) tag kind .ok x.staging.length (s.fetcher (axisRing a)).tail
      (((x.staging.map AxisRecord.tag).getLast?).getD 0) 0
    s.interp = .waiting → (s.dev = .online ∨ s.dev = .quiescing ∧ ∃ b, (s.axis b).st.moving = true) → x.stopReq = none →
    (∃ e, takes e) → (abort = false → ∀ v, d = some v → 1 ≤ v ∧ v ≤ 262144) →
      (x.st = .off ∨ x.st = .halted → ∃ e, takes e ∧
        exec c s = .next (s.withReport e (ctlReport s (some a) tag kind .notAllowed 0 0 0 0))) ∧
      ((x.st = .idle ∨ x.st = .dwell ∨ x.st = .waitEvent) → x.held = none → ∃ e t, takes e ∧ exec c s = .next t ∧
        (t.axis a).st = .idle ∧ (t.axis a).staging = [] ∧ (t.axis a).active = none ∧ (t.axis a).stopReq = none ∧
        (t.axis a).timer = x.timer ∧ (t.axis a).cmdPos = x.cmdPos ∧ (t.axis a).latches = x.latches ∧
        t.fetcher (axisRing a) = (s.fetcher (axisRing a)).setHead ∧ t.entry e = .filled request ∧
        (x.active = none → t.fillQueue = s.fillQueue ++ [e]) ∧
        (∀ g, x.active = some g → t.fillQueue = s.fillQueue ++ [g.entry, e] ∧
          (s.entry g.entry ≠ .free → t.entry g.entry = .filled (retired g.record.id g.words)) ∧
          (∀ n k, g.record.body = .dwell n k → g.words = (BitVec.ofNat 32 g.expiries, 0)) ∧
          (∀ w, g.record.body = .wait w → g.words = (0, 0))) ∧
        (∀ b, b ≠ a → t.axis b = s.axis b) ∧ t.groups = s.groups) ∧
      (∀ h, s.dev = .online → x.st = .waitSync → x.active = none → x.held = some h → s.entry h.entry ≠ .free → h.entry.val < 16 →
        (s.group h.group).st = .gathering →
        (∀ b, b ≠ a → setHas (s.group h.group).arrived b = true → (s.axis b).stopReq = none ∧ (s.axis b).active = none ∧
          ∃ k, (s.axis b).held = some k ∧ k.entry ≠ h.entry ∧ s.entry k.entry ≠ .free) →
        ∃ e t more, takes e ∧ exec c s = .next t ∧
          (t.axis a).st = .idle ∧ (t.axis a).staging = [] ∧ (t.axis a).held = none ∧ (t.axis a).stopReq = none ∧
          (t.axis a).timer = x.timer ∧ (t.axis a).cmdPos = x.cmdPos ∧ (t.axis a).encPos = x.encPos ∧
          (t.fetcher (axisRing a)).head = (s.fetcher (axisRing a)).tail ∧
          t.fillQueue = s.fillQueue ++ [h.entry, e] ++ more ∧
          t.entry h.entry = .filled (retired h.record.id (0, 0)) ∧ t.entry e = .filled request ∧
          t.group h.group = { s.group h.group with st := .broken, arrived := 0, count := 0 } ∧
          (∀ k, k ≠ h.group → t.group k = s.group k) ∧
          (∀ b, b ≠ a → setHas (s.group h.group).arrived b = true → (t.axis b).st = .halted ∧
            (t.axis b).cause = some .syncBroken ∧ (t.axis b).held = none ∧ (t.axis b).staging = [] ∧
            faultSlot b ∈ more) ∧
          (∀ b, b ≠ a → setHas (s.group h.group).arrived b = false → t.axis b = s.axis b))

/-- R45, R47, R50, R57, R58 and R110: ABORT_AXIS for a moving axis, in ONLINE and under a quiesce, sets the rate to 0 and withholds the
pulses not begun, the MOVE retires ABORTED with the steps issued, and the axis is at rest at once; a pending request is taken over, and
without one the request takes the stop slot where it is FREE and a general entry where not. Under a quiesce every axis goes to OFF at
that instant where no other moves (R21). That a pulse already begun goes on there as well is read from R110 (log entry 27, DEDUCED: R106
has STEP low when an axis goes to OFF at the end of a quiesce). The report of a MOVE that took over at a join carries the time of its
retirement too (log entry 34, DEDUCED, against the last clause of R39). -/
def Obligations.AbortAxisStopsAMovingAxis : Prop :=
  ∀ (s : State) (a : Axis) (tag : Word) (g : Segment) (m : Move),
    let x := s.axis a
    let takes (e : Fin 24) : Prop := match x.stopReq with
      | some q => e = q.entry
      | none => if s.entry (stopSlot a) = .free then e = stopSlot a else s.FreeGeneral e
    let superseded := match x.stopReq with
      | some q => q.tag
      | none => 0
    let alone := ∀ b, b ≠ a → (s.axis b).st.moving = false
    (s.dev = .online ∨ s.dev = .quiescing) → s.interp = .waiting → (x.st = .run ∨ x.st = .rampDown) → x.active = some g →
    g.record.body = .move m → x.held = none → s.entry g.entry ≠ .free → (∀ q, x.stopReq = some q → g.entry ≠ q.entry) →
    (∃ e, takes e) →
      ∃ e t, takes e ∧ exec (.abortAxis a tag) s = .next t ∧ t.fillQueue = s.fillQueue ++ [g.entry, e] ∧
        t.entry g.entry = .filled {
          seq := 0, source := .axis a, kind := .segment, status := .aborted, cause := none, echo := 0x01, flushed := 0
          ringHead := 0, tag := g.record.tag, time := s.time, cmd := x.cmdPos, enc := x.encPos
          wordA := BitVec.ofNat 32 g.issued, wordB := BitVec.ofNat 32 g.overrun } ∧
        t.entry e = .filled (ctlReport s (some a) tag 0x15 .ok x.staging.length (s.fetcher (axisRing a)).tail
          (((x.staging.map AxisRecord.tag).getLast?).getD 0) superseded) ∧
        t.fetcher (axisRing a) = (s.fetcher (axisRing a)).setHead ∧
        (t.axis a).rate = 0 ∧ (t.axis a).frac = 0 ∧ (t.axis a).periodSteps = 0 ∧ (t.axis a).schedule = [] ∧
        (t.axis a).pulse = x.pulse ∧ (t.axis a).staging = [] ∧ (t.axis a).active = none ∧ (t.axis a).stopReq = none ∧
        (t.axis a).cmdPos = x.cmdPos ∧ (t.axis a).encPos = x.encPos ∧ (t.axis a).acc = x.acc ∧
        (s.dev = .online ∨ ¬ alone → (t.axis a).st = .idle ∧ ∀ b, b ≠ a → t.axis b = s.axis b) ∧
        (s.dev = .quiescing → alone → AllWentOff s t)

/-- R63 and R64: CLEAR_FAULT. -/
def Obligations.ClearFaultLeavesHalted : Prop :=
  ∀ (s : State) (a : Axis) (tag : Word) (resume realign : Bool),
    let x := s.axis a
    let f := s.fetcher (axisRing a)
    let cleared := s.modAxis a fun x => { x with
      st := .idle, cause := none, further := 0, acc := if realign then 0 else x.acc }
    let report (st : Status) (head : Nat) (w : Word) : Report := ctlReport s (some a) tag 0x16 st 0 head w 0
    s.Ready → (∃ e, s.FreeGeneral e) →
      (x.st ≠ .halted → ∃ e, s.FreeGeneral e ∧ exec (.clearFault a tag resume realign) s = .next
        (s.withReport e (report .notAllowed 0 0))) ∧
      (x.st = .halted → s.entry (faultSlot a) ≠ .free → ∃ e, s.FreeGeneral e ∧
        exec (.clearFault a tag resume realign) s = .next (s.withReport e (report .reportPending 0 0))) ∧
      (x.st = .halted → s.entry (faultSlot a) = .free → resume = true → ∃ e, s.FreeGeneral e ∧
        exec (.clearFault a tag resume realign) s = .next
          (cleared.withReport e (report .ok f.head (BitVec.ofNat 32 x.further)))) ∧
      (x.st = .halted → s.entry (faultSlot a) = .free → resume = false → ∃ e, s.FreeGeneral e ∧
        exec (.clearFault a tag resume realign) s = .next
          ((cleared.modFetcher (axisRing a) Fetcher.setHead).withReport e (report .ok f.tail (BitVec.ofNat 32 x.further))))

/-- R68: DEFINE_GROUP, for a member set of 2 to 4 axes and a timeout in range. R69 and R76: CLEAR_GROUP. A gathering breaks first, and
each arrived member halts with SYNC_BROKEN. -/
def Obligations.DefineAndClearGroup : Prop :=
  (∀ (s : State) (g : GroupIx) (tag : Word) (m : AxisSet) (reusable : Bool) (timeout : Option Nat),
    let y := s.group g
    s.Ready → (∃ e, s.FreeGeneral e) →
    (∃ a b : Axis, a ≠ b ∧ setHas m a = true ∧ setHas m b = true) → (∀ v, timeout = some v → 1 ≤ v ∧ v ≤ 65535) →
      (y.st = .gathering → ∃ e, s.FreeGeneral e ∧ exec (.defineGroup g tag m reusable timeout) s = .next
        (s.withReport e (ctlReport s none tag 0x17 .busy 0 0 2 (y.gen.setWidth 32)))) ∧
      (y.st ≠ .gathering → ∃ e, s.FreeGeneral e ∧ exec (.defineGroup g tag m reusable timeout) s = .next
        ((s.modGroup g fun _ => {
          st := .armed, members := m, arrived := 0, reusable := reusable, timeout := timeout, count := 0, gen := 0 }).withReport
          e (ctlReport s none tag 0x17 .ok 0 0 (BitVec.ofNat 32 y.st.code) (y.gen.setWidth 32))))) ∧
  (∀ (s : State) (g : GroupIx) (tag : Word),
    let y := s.group g
    s.Ready → (∃ e, s.FreeGeneral e) →
      (y.st ≠ .gathering → ∃ e, s.FreeGeneral e ∧ exec (.clearGroup g tag) s = .next
        ((s.modGroup g fun _ => Group.reset).withReport e
          (ctlReport s none tag 0x18 .ok 0 0 (BitVec.ofNat 32 y.st.code) (y.gen.setWidth 32)))) ∧
      (y.st = .gathering → (∀ b, setHas y.arrived b = true → (s.axis b).held ≠ none) →
        ∃ e t, s.FreeGeneral e ∧ exec (.clearGroup g tag) s = .next t ∧
          t.group g = Group.reset ∧ (∀ k, k ≠ g → t.group k = s.group k) ∧
          (∀ b, setHas y.arrived b = true → (t.axis b).st = .halted ∧ (t.axis b).cause = some .syncBroken ∧
            (t.axis b).held = none) ∧
          (∀ b, setHas y.arrived b = false → t.axis b = s.axis b) ∧
          t.fillQueue.getLast? = some e ∧
          ∃ r, t.entry e = .filled r ∧ r.tag = tag ∧ r.status = .ok ∧
            r.wordA = BitVec.ofNat 32 (2 + 256 * ((allAxes.filter fun b => setHas y.arrived b).length)) ∧
            r.wordB = y.gen.setWidth 32))

/-- R114 and R115: SET_CAPTURE with action ARM, its count absent or 1 to 255, and with action DISARM; and the capture word that its
completion carries (section 12.5), for an arm whose remaining count fits its field. -/
def Obligations.SetCaptureArmsAndDisarms : Prop :=
  ∀ (s : State) (a : Axis) (tag : Word) (src : Source) (count : Option Nat),
    let m := (s.axis a).arm
    let report (st : Status) : Report := ctlReport s (some a) tag 0x19 st 0 0 (BitVec.ofNat 32 m.missed) (captureWord m)
    s.Ready → (∃ e, s.FreeGeneral e) → (∀ n, count = some n → 1 ≤ n ∧ n ≤ 255) →
      ((s.axis a).st = .off → ∃ e, s.FreeGeneral e ∧ exec (.setCaptureArm a tag src count) s = .next
        (s.withReport e (report .notAllowed))) ∧
      ((s.axis a).st ≠ .off → ∃ e, s.FreeGeneral e ∧ exec (.setCaptureArm a tag src count) s = .next
        ((s.modAxis a fun x => { x with
          arm := { armed := true, source := src, remaining := count, tag := tag, missed := 0 } }).withReport e (report .ok))) ∧
      (∃ e, s.FreeGeneral e ∧ exec (.setCaptureDisarm a tag) s = .next
        ((s.modAxis a fun x => { x with arm := { x.arm with armed := false, missed := 0 } }).withReport e (report .ok))) ∧
      ((∀ n, m.remaining = some n → n ≤ 255) →
        (captureWord m).getLsbD 0 = m.armed ∧ (captureWord m).extractLsb' 4 3 = (match m.source with
          | .index => 0#3
          | .home => 1#3
          | .trg k => BitVec.ofNat 3 (2 + k.val)) ∧
        (captureWord m).extractLsb' 8 8 = BitVec.ofNat 8 (m.remaining.getD 0) ∧
        (captureWord m).getLsbD 16 = m.remaining.isNone)

/-- R159: READ_STATUS reports the axis as it stands and changes nothing else. R160: NOP completes OK and acts on nothing. R155 and R156:
a record marked invalid completes INVALID with its kind code as read and the positions of the axis it names, in the axis's stop slot
where it is a STOP_AXIS or ABORT_AXIS naming an axis whose slot is FREE, and in a general entry where not. One with the kind code of
READ_STATUS gives a STATUS report (R155) with the fault cause of the axis it names (R175), and with none of the other status items:
the model's choice, log entry 32. -/
def Obligations.RecordsTheInterpreterActsOnItself : Prop :=
  (∀ (s : State) (a : Axis) (tag : Word),
    let x := s.axis a
    s.Ready → (∃ e, s.FreeGeneral e) → x.rate ≤ 262144 → x.further ≤ 255 →
      ∃ e wa wb, s.FreeGeneral e ∧ exec (.readStatus a tag) s = .next (s.withReport e {
          seq := 0, source := .control, kind := .status, status := .ok, cause := x.cause, echo := 0x1A
          flushed := x.staging.length, ringHead := (s.fetcher (axisRing a)).head, tag := tag, time := s.time
          cmd := x.cmdPos, enc := x.encPos, wordA := wa, wordB := wb }) ∧
        wa.extractLsb' 0 19 = BitVec.ofNat 19 x.rate ∧ wa.extractLsb' 20 3 = BitVec.ofNat 3 x.st.code ∧
        wa.extractLsb' 24 8 = BitVec.ofNat 8 x.further ∧
        (∀ src, wb.getLsbD (sourceIx src).val = (x.latch src).flag) ∧
        (∀ src, wb.getLsbD (6 + (sourceIx src).val) = (x.latch src).overrun) ∧
        wb.getLsbD 12 = (s.line (.encA a)).level ∧ wb.getLsbD 13 = (s.line (.encB a)).level ∧
        wb.getLsbD 14 = (s.line (.encI a)).level ∧ wb.getLsbD 15 = (s.line (.limP a)).level ∧
        wb.getLsbD 16 = (s.line (.limN a)).level ∧ wb.getLsbD 17 = (s.line (.home a)).level ∧
        (∀ k : Fin 4, wb.getLsbD (18 + k.val) = (s.line (.trg k)).level) ∧
        wb.extractLsb' 24 8 = BitVec.ofNat 8 x.quadErrs) ∧
  (∀ (s : State) (tag : Word), s.Ready → (∃ e, s.FreeGeneral e) →
    ∃ e, s.FreeGeneral e ∧ exec (.nop tag) s = .next (s.withReport e (ctlReport s none tag 0x1B .ok 0 0 0 0))) ∧
  (∀ (s : State) (kind : BitVec 5) (index : BitVec 8) (tag : Word),
    let names : Bool := kind == 0x10 || kind == 0x12 || kind == 0x13 || kind == 0x14 || kind == 0x15 || kind == 0x16
      || kind == 0x19 || kind == 0x1A
    let a? : Option Axis := if h : index.toNat < 4 then (if names then some ⟨index.toNat, h⟩ else none) else none
    let stop := kind = 0x14 ∨ kind = 0x15
    let report : Report := ctlReport s a? tag kind .invalid 0 0 0 0
    let done (e : Fin 24) : State := s.withReport e (if kind = 0x1A then
      { report with kind := .status, cause := a?.bind fun a => (s.axis a).cause } else report)
    s.Ready →
      (∀ a, a? = some a → stop → s.entry (stopSlot a) = .free →
        exec (.invalidControlRecord kind index tag) s = .next (done (stopSlot a))) ∧
      ((∀ a, a? = some a → stop → s.entry (stopSlot a) ≠ .free) → (∃ e, s.FreeGeneral e) →
        ∃ e, s.FreeGeneral e ∧ exec (.invalidControlRecord kind index tag) s = .next (done e)))

/-- R152, R153, R154 and R119: a record whose entry cannot be had is held and has no effect yet. Where a report write frees a general
entry the record is accepted with it, or the entry is FREE for another reserver of that instant: a capture that comes first takes it and
the record is held on. A held record that can have an entry is accepted before time passes. R79: where the MOVE of an axis ends and
leaves its entry unused with a record tagged with an ARMED group next, a held CLEAR_GROUP of that group comes before the arrival, which
then fails with RECORD_INVALID, or after it, held on. Stated with no entry claimed, the claim, and the free value that decides, being
the model's own (log entry 7). -/
def Obligations.RecordIsHeldForWantOfAnEntry : Prop :=
  ∀ (s : State) (a : Axis) (g : GroupIx) (tag : Word), s.claim = none →
    let nop : CtlRecord := { tag := tag, body := .nop }
    (s.Ready → (∀ e, ¬ s.FreeGeneral e) →
      exec (.nop tag) s = .next { s with interp := .holding nop } ∧
      exec (.readStatus a tag) s = .next { s with interp := .holding { tag := tag, body := .readStatus a } } ∧
      exec (.enableAxis a tag) s = .next { s with interp := .holding { tag := tag, body := .enableAxis a } } ∧
      exec (.disableAxis a tag) s = .next { s with interp := .holding { tag := tag, body := .disableAxis a } } ∧
      exec (.clearGroup g tag) s = .next { s with interp := .holding { tag := tag, body := .clearGroup g } } ∧
      (s.entry (stopSlot a) ≠ .free → (s.axis a).stopReq = none →
        exec (.abortAxis a tag) s = .next { s with interp := .holding { tag := tag, body := .abortAxis a } })) ∧
    (s.dev = .online → s.interp = .holding nop →
      (∀ e ad v, (∀ e, ¬ s.FreeGeneral e) → e.val < 16 → s.port = some (.report e ad v) →
        ∃ t, exec (.completionWriteComplete false) s = .next t ∧
          ((t.interp = .waiting ∧ t.entry e = .filled (ctlReport s none tag 0x1B .ok 0 0 0 0) ∧
              t.fillQueue = s.fillQueue ++ [e]) ∨
            (t.interp = .holding nop ∧ t.entry e = .free ∧ t.fillQueue = s.fillQueue))) ∧
      (∀ e m, s.FreeGeneral e → (∀ k, s.FreeGeneral k → k = e) → (s.axis a).arm.armed = true →
        (s.axis a).arm.source = .trg m → (s.axis a).cfg.indexSrc = .own → (s.axis a).cfg.homeSrc = .own →
        (∀ b, b ≠ a → (s.axis b).arm.armed = false) → (∀ b, (s.axis b).st ≠ .waitEvent) →
        ∃ t r, exec (.event (.trg m)) s = .next t ∧ t.interp = .holding nop ∧ t.entry e = .filled r ∧ r.kind = .capture ∧
          r.tag = (s.axis a).arm.tag ∧ t.fillQueue = s.fillQueue ++ [e]) ∧
      (s.pending = [] → dueEvents s = [] → (∃ e, s.FreeGeneral e) → ∃ e, s.FreeGeneral e ∧
        step s = .next ({ s with interp := .waiting }.withReport e (ctlReport s none tag 0x1B .ok 0 0 0 0)))) ∧
    (∀ (f : Segment) (m : Move) (r : AxisRecord) (n : Nat), s.dev = .online →
      s.interp = .holding { tag := tag, body := .clearGroup g } → (∀ e, ¬ s.FreeGeneral e) → (∀ g, (s.group g).st ≠ .gathering) →
      (s.axis a).st = .run → (s.axis a).active = some f → f.record.body = .move m → m.exit = .rest → f.record.report = false →
      f.entry.val < 16 → (s.axis a).remaining = 0 → (s.axis a).rate ≤ (s.axis a).cfg.jumpLimit → (s.axis a).held = none →
      (s.axis a).stopReq = none →
      ((s.axis a).cfg.countsPerStep = 0 ∨ (s.axis a).acc.natAbs ≤ (s.axis a).cfg.followWindow) →
      (s.axis a).staging = [r] → r.body = .dwell n (some g) → (s.group g).st = .armed → setHas (s.group g).members a = true →
      (s.group g).arrived = 0 → (∃ b, b ≠ a ∧ setHas (s.group g).members b = true) →
      ∃ t, exec (.updatePeriodExpiry a) s = .next t ∧
        ((t.interp = .waiting ∧ t.group g = Group.reset ∧ (t.axis a).st = .halted ∧ (t.axis a).cause = some .recordInvalid ∧
            t.fillQueue = s.fillQueue ++ [f.entry, faultSlot a]) ∨
          (t.interp = .holding { tag := tag, body := .clearGroup g } ∧ (t.group g).st = .gathering ∧
            (t.axis a).st = .waitSync ∧ (t.axis a).held = some { record := r, group := g, entry := f.entry } ∧
            t.fillQueue = s.fillQueue)))

end
end

