-- ==== Sys2Proof/Laws/State.lean ====
section
/-! SUPPORT. The named updates of State, one lemma per field: a field the update leaves, the part it changes, and the other
parts of the same vector. -/

namespace Sys2Proof.Machine
open Sys2Proof

/-! ### Vectors -/

@[simp] theorem mapEach_getElem {α : Type} {n : Nat} (f : α → α) (v : Vector α n) (i : Nat) (h : i < n) :
    (mapEach f v)[i] = f v[i] := by simp [mapEach]

@[simp] theorem mapEach_getElem_fin {α : Type} {n : Nat} (f : α → α) (v : Vector α n) (i : Fin n) :
    (mapEach f v)[i] = f v[i] := by simp [mapEach]

/-! ### modAxis -/

@[simp] theorem State.modAxis_pending (s : State) (a : Axis) (f : AxisBlock → AxisBlock) : (s.modAxis a f).pending = s.pending := rfl
@[simp] theorem State.modAxis_dev (s : State) (a : Axis) (f : AxisBlock → AxisBlock) : (s.modAxis a f).dev = s.dev := rfl
@[simp] theorem State.modAxis_resetCause (s : State) (a : Axis) (f : AxisBlock → AxisBlock) : (s.modAxis a f).resetCause = s.resetCause := rfl
@[simp] theorem State.modAxis_setupCode (s : State) (a : Axis) (f : AxisBlock → AxisBlock) : (s.modAxis a f).setupCode = s.setupCode := rfl
@[simp] theorem State.modAxis_failure (s : State) (a : Axis) (f : AxisBlock → AxisBlock) : (s.modAxis a f).failure = s.failure := rfl
@[simp] theorem State.modAxis_setupAddr (s : State) (a : Axis) (f : AxisBlock → AxisBlock) : (s.modAxis a f).setupAddr = s.setupAddr := rfl
@[simp] theorem State.modAxis_setupRead (s : State) (a : Axis) (f : AxisBlock → AxisBlock) : (s.modAxis a f).setupRead = s.setupRead := rfl
@[simp] theorem State.modAxis_suaLo (s : State) (a : Axis) (f : AxisBlock → AxisBlock) : (s.modAxis a f).suaLo = s.suaLo := rfl
@[simp] theorem State.modAxis_suaHi (s : State) (a : Axis) (f : AxisBlock → AxisBlock) : (s.modAxis a f).suaHi = s.suaHi := rfl
@[simp] theorem State.modAxis_postErr (s : State) (a : Axis) (f : AxisBlock → AxisBlock) : (s.modAxis a f).postErr = s.postErr := rfl
@[simp] theorem State.modAxis_headErr (s : State) (a : Axis) (f : AxisBlock → AxisBlock) : (s.modAxis a f).headErr = s.headErr := rfl
@[simp] theorem State.modAxis_cplFlag (s : State) (a : Axis) (f : AxisBlock → AxisBlock) : (s.modAxis a f).cplFlag = s.cplFlag := rfl
@[simp] theorem State.modAxis_failFlag (s : State) (a : Axis) (f : AxisBlock → AxisBlock) : (s.modAxis a f).failFlag = s.failFlag := rfl
@[simp] theorem State.modAxis_setupFlag (s : State) (a : Axis) (f : AxisBlock → AxisBlock) : (s.modAxis a f).setupFlag = s.setupFlag := rfl
@[simp] theorem State.modAxis_imod (s : State) (a : Axis) (f : AxisBlock → AxisBlock) : (s.modAxis a f).imod = s.imod := rfl
@[simp] theorem State.modAxis_writeCount (s : State) (a : Axis) (f : AxisBlock → AxisBlock) : (s.modAxis a f).writeCount = s.writeCount := rfl
@[simp] theorem State.modAxis_holdoff (s : State) (a : Axis) (f : AxisBlock → AxisBlock) : (s.modAxis a f).holdoff = s.holdoff := rfl
@[simp] theorem State.modAxis_timeRunning (s : State) (a : Axis) (f : AxisBlock → AxisBlock) : (s.modAxis a f).timeRunning = s.timeRunning := rfl
@[simp] theorem State.modAxis_time (s : State) (a : Axis) (f : AxisBlock → AxisBlock) : (s.modAxis a f).time = s.time := rfl
@[simp] theorem State.modAxis_subTick (s : State) (a : Axis) (f : AxisBlock → AxisBlock) : (s.modAxis a f).subTick = s.subTick := rfl
@[simp] theorem State.modAxis_fetchers (s : State) (a : Axis) (f : AxisBlock → AxisBlock) : (s.modAxis a f).fetchers = s.fetchers := rfl
@[simp] theorem State.modAxis_port (s : State) (a : Axis) (f : AxisBlock → AxisBlock) : (s.modAxis a f).port = s.port := rfl
@[simp] theorem State.modAxis_rr (s : State) (a : Axis) (f : AxisBlock → AxisBlock) : (s.modAxis a f).rr = s.rr := rfl
@[simp] theorem State.modAxis_entries (s : State) (a : Axis) (f : AxisBlock → AxisBlock) : (s.modAxis a f).entries = s.entries := rfl
@[simp] theorem State.modAxis_fillQueue (s : State) (a : Axis) (f : AxisBlock → AxisBlock) : (s.modAxis a f).fillQueue = s.fillQueue := rfl
@[simp] theorem State.modAxis_writer (s : State) (a : Axis) (f : AxisBlock → AxisBlock) : (s.modAxis a f).writer = s.writer := rfl
@[simp] theorem State.modAxis_interp (s : State) (a : Axis) (f : AxisBlock → AxisBlock) : (s.modAxis a f).interp = s.interp := rfl
@[simp] theorem State.modAxis_claim (s : State) (a : Axis) (f : AxisBlock → AxisBlock) : (s.modAxis a f).claim = s.claim := rfl
@[simp] theorem State.modAxis_groups (s : State) (a : Axis) (f : AxisBlock → AxisBlock) : (s.modAxis a f).groups = s.groups := rfl
@[simp] theorem State.modAxis_lines (s : State) (a : Axis) (f : AxisBlock → AxisBlock) : (s.modAxis a f).lines = s.lines := rfl
@[simp] theorem State.modAxis_inputs (s : State) (a : Axis) (f : AxisBlock → AxisBlock) : (s.modAxis a f).inputs = s.inputs := rfl
@[simp] theorem State.modAxis_slowClock (s : State) (a : Axis) (f : AxisBlock → AxisBlock) : (s.modAxis a f).slowClock = s.slowClock := rfl
@[simp] theorem State.modAxis_slowDue (s : State) (a : Axis) (f : AxisBlock → AxisBlock) : (s.modAxis a f).slowDue = s.slowDue := rfl
@[simp] theorem State.modAxis_fastDue (s : State) (a : Axis) (f : AxisBlock → AxisBlock) : (s.modAxis a f).fastDue = s.fastDue := rfl
@[simp] theorem State.modAxis_pins (s : State) (a : Axis) (f : AxisBlock → AxisBlock) : (s.modAxis a f).pins = s.pins := rfl
@[simp] theorem State.modAxis_freeCount (s : State) (a : Axis) (f : AxisBlock → AxisBlock) : (s.modAxis a f).freeCount = s.freeCount := rfl
@[simp] theorem State.modAxis_fetcher (s : State) (a : Axis) (f : AxisBlock → AxisBlock) (q : Fin 5) : (s.modAxis a f).fetcher q = s.fetcher q := rfl
@[simp] theorem State.modAxis_entry (s : State) (a : Axis) (f : AxisBlock → AxisBlock) (k : Fin 24) : (s.modAxis a f).entry k = s.entry k := rfl
@[simp] theorem State.modAxis_group (s : State) (a : Axis) (f : AxisBlock → AxisBlock) (j : GroupIx) : (s.modAxis a f).group j = s.group j := rfl
@[simp] theorem State.modAxis_line (s : State) (a : Axis) (f : AxisBlock → AxisBlock) (m : Line) : (s.modAxis a f).line m = s.line m := rfl

/-! ### mapAxes -/

@[simp] theorem State.mapAxes_pending (s : State) (f : AxisBlock → AxisBlock) : (s.mapAxes f).pending = s.pending := rfl
@[simp] theorem State.mapAxes_dev (s : State) (f : AxisBlock → AxisBlock) : (s.mapAxes f).dev = s.dev := rfl
@[simp] theorem State.mapAxes_resetCause (s : State) (f : AxisBlock → AxisBlock) : (s.mapAxes f).resetCause = s.resetCause := rfl
@[simp] theorem State.mapAxes_setupCode (s : State) (f : AxisBlock → AxisBlock) : (s.mapAxes f).setupCode = s.setupCode := rfl
@[simp] theorem State.mapAxes_failure (s : State) (f : AxisBlock → AxisBlock) : (s.mapAxes f).failure = s.failure := rfl
@[simp] theorem State.mapAxes_setupAddr (s : State) (f : AxisBlock → AxisBlock) : (s.mapAxes f).setupAddr = s.setupAddr := rfl
@[simp] theorem State.mapAxes_setupRead (s : State) (f : AxisBlock → AxisBlock) : (s.mapAxes f).setupRead = s.setupRead := rfl
@[simp] theorem State.mapAxes_suaLo (s : State) (f : AxisBlock → AxisBlock) : (s.mapAxes f).suaLo = s.suaLo := rfl
@[simp] theorem State.mapAxes_suaHi (s : State) (f : AxisBlock → AxisBlock) : (s.mapAxes f).suaHi = s.suaHi := rfl
@[simp] theorem State.mapAxes_postErr (s : State) (f : AxisBlock → AxisBlock) : (s.mapAxes f).postErr = s.postErr := rfl
@[simp] theorem State.mapAxes_headErr (s : State) (f : AxisBlock → AxisBlock) : (s.mapAxes f).headErr = s.headErr := rfl
@[simp] theorem State.mapAxes_cplFlag (s : State) (f : AxisBlock → AxisBlock) : (s.mapAxes f).cplFlag = s.cplFlag := rfl
@[simp] theorem State.mapAxes_failFlag (s : State) (f : AxisBlock → AxisBlock) : (s.mapAxes f).failFlag = s.failFlag := rfl
@[simp] theorem State.mapAxes_setupFlag (s : State) (f : AxisBlock → AxisBlock) : (s.mapAxes f).setupFlag = s.setupFlag := rfl
@[simp] theorem State.mapAxes_imod (s : State) (f : AxisBlock → AxisBlock) : (s.mapAxes f).imod = s.imod := rfl
@[simp] theorem State.mapAxes_writeCount (s : State) (f : AxisBlock → AxisBlock) : (s.mapAxes f).writeCount = s.writeCount := rfl
@[simp] theorem State.mapAxes_holdoff (s : State) (f : AxisBlock → AxisBlock) : (s.mapAxes f).holdoff = s.holdoff := rfl
@[simp] theorem State.mapAxes_timeRunning (s : State) (f : AxisBlock → AxisBlock) : (s.mapAxes f).timeRunning = s.timeRunning := rfl
@[simp] theorem State.mapAxes_time (s : State) (f : AxisBlock → AxisBlock) : (s.mapAxes f).time = s.time := rfl
@[simp] theorem State.mapAxes_subTick (s : State) (f : AxisBlock → AxisBlock) : (s.mapAxes f).subTick = s.subTick := rfl
@[simp] theorem State.mapAxes_fetchers (s : State) (f : AxisBlock → AxisBlock) : (s.mapAxes f).fetchers = s.fetchers := rfl
@[simp] theorem State.mapAxes_port (s : State) (f : AxisBlock → AxisBlock) : (s.mapAxes f).port = s.port := rfl
@[simp] theorem State.mapAxes_rr (s : State) (f : AxisBlock → AxisBlock) : (s.mapAxes f).rr = s.rr := rfl
@[simp] theorem State.mapAxes_entries (s : State) (f : AxisBlock → AxisBlock) : (s.mapAxes f).entries = s.entries := rfl
@[simp] theorem State.mapAxes_fillQueue (s : State) (f : AxisBlock → AxisBlock) : (s.mapAxes f).fillQueue = s.fillQueue := rfl
@[simp] theorem State.mapAxes_writer (s : State) (f : AxisBlock → AxisBlock) : (s.mapAxes f).writer = s.writer := rfl
@[simp] theorem State.mapAxes_interp (s : State) (f : AxisBlock → AxisBlock) : (s.mapAxes f).interp = s.interp := rfl
@[simp] theorem State.mapAxes_claim (s : State) (f : AxisBlock → AxisBlock) : (s.mapAxes f).claim = s.claim := rfl
@[simp] theorem State.mapAxes_groups (s : State) (f : AxisBlock → AxisBlock) : (s.mapAxes f).groups = s.groups := rfl
@[simp] theorem State.mapAxes_lines (s : State) (f : AxisBlock → AxisBlock) : (s.mapAxes f).lines = s.lines := rfl
@[simp] theorem State.mapAxes_inputs (s : State) (f : AxisBlock → AxisBlock) : (s.mapAxes f).inputs = s.inputs := rfl
@[simp] theorem State.mapAxes_slowClock (s : State) (f : AxisBlock → AxisBlock) : (s.mapAxes f).slowClock = s.slowClock := rfl
@[simp] theorem State.mapAxes_slowDue (s : State) (f : AxisBlock → AxisBlock) : (s.mapAxes f).slowDue = s.slowDue := rfl
@[simp] theorem State.mapAxes_fastDue (s : State) (f : AxisBlock → AxisBlock) : (s.mapAxes f).fastDue = s.fastDue := rfl
@[simp] theorem State.mapAxes_pins (s : State) (f : AxisBlock → AxisBlock) : (s.mapAxes f).pins = s.pins := rfl
@[simp] theorem State.mapAxes_freeCount (s : State) (f : AxisBlock → AxisBlock) : (s.mapAxes f).freeCount = s.freeCount := rfl
@[simp] theorem State.mapAxes_fetcher (s : State) (f : AxisBlock → AxisBlock) (q : Fin 5) : (s.mapAxes f).fetcher q = s.fetcher q := rfl
@[simp] theorem State.mapAxes_entry (s : State) (f : AxisBlock → AxisBlock) (k : Fin 24) : (s.mapAxes f).entry k = s.entry k := rfl
@[simp] theorem State.mapAxes_group (s : State) (f : AxisBlock → AxisBlock) (j : GroupIx) : (s.mapAxes f).group j = s.group j := rfl
@[simp] theorem State.mapAxes_line (s : State) (f : AxisBlock → AxisBlock) (m : Line) : (s.mapAxes f).line m = s.line m := rfl

/-! ### modFetcher -/

@[simp] theorem State.modFetcher_pending (s : State) (r : Fin 5) (f : Fetcher → Fetcher) : (s.modFetcher r f).pending = s.pending := rfl
@[simp] theorem State.modFetcher_dev (s : State) (r : Fin 5) (f : Fetcher → Fetcher) : (s.modFetcher r f).dev = s.dev := rfl
@[simp] theorem State.modFetcher_resetCause (s : State) (r : Fin 5) (f : Fetcher → Fetcher) : (s.modFetcher r f).resetCause = s.resetCause := rfl
@[simp] theorem State.modFetcher_setupCode (s : State) (r : Fin 5) (f : Fetcher → Fetcher) : (s.modFetcher r f).setupCode = s.setupCode := rfl
@[simp] theorem State.modFetcher_failure (s : State) (r : Fin 5) (f : Fetcher → Fetcher) : (s.modFetcher r f).failure = s.failure := rfl
@[simp] theorem State.modFetcher_setupAddr (s : State) (r : Fin 5) (f : Fetcher → Fetcher) : (s.modFetcher r f).setupAddr = s.setupAddr := rfl
@[simp] theorem State.modFetcher_setupRead (s : State) (r : Fin 5) (f : Fetcher → Fetcher) : (s.modFetcher r f).setupRead = s.setupRead := rfl
@[simp] theorem State.modFetcher_suaLo (s : State) (r : Fin 5) (f : Fetcher → Fetcher) : (s.modFetcher r f).suaLo = s.suaLo := rfl
@[simp] theorem State.modFetcher_suaHi (s : State) (r : Fin 5) (f : Fetcher → Fetcher) : (s.modFetcher r f).suaHi = s.suaHi := rfl
@[simp] theorem State.modFetcher_postErr (s : State) (r : Fin 5) (f : Fetcher → Fetcher) : (s.modFetcher r f).postErr = s.postErr := rfl
@[simp] theorem State.modFetcher_headErr (s : State) (r : Fin 5) (f : Fetcher → Fetcher) : (s.modFetcher r f).headErr = s.headErr := rfl
@[simp] theorem State.modFetcher_cplFlag (s : State) (r : Fin 5) (f : Fetcher → Fetcher) : (s.modFetcher r f).cplFlag = s.cplFlag := rfl
@[simp] theorem State.modFetcher_failFlag (s : State) (r : Fin 5) (f : Fetcher → Fetcher) : (s.modFetcher r f).failFlag = s.failFlag := rfl
@[simp] theorem State.modFetcher_setupFlag (s : State) (r : Fin 5) (f : Fetcher → Fetcher) : (s.modFetcher r f).setupFlag = s.setupFlag := rfl
@[simp] theorem State.modFetcher_imod (s : State) (r : Fin 5) (f : Fetcher → Fetcher) : (s.modFetcher r f).imod = s.imod := rfl
@[simp] theorem State.modFetcher_writeCount (s : State) (r : Fin 5) (f : Fetcher → Fetcher) : (s.modFetcher r f).writeCount = s.writeCount := rfl
@[simp] theorem State.modFetcher_holdoff (s : State) (r : Fin 5) (f : Fetcher → Fetcher) : (s.modFetcher r f).holdoff = s.holdoff := rfl
@[simp] theorem State.modFetcher_timeRunning (s : State) (r : Fin 5) (f : Fetcher → Fetcher) : (s.modFetcher r f).timeRunning = s.timeRunning := rfl
@[simp] theorem State.modFetcher_time (s : State) (r : Fin 5) (f : Fetcher → Fetcher) : (s.modFetcher r f).time = s.time := rfl
@[simp] theorem State.modFetcher_subTick (s : State) (r : Fin 5) (f : Fetcher → Fetcher) : (s.modFetcher r f).subTick = s.subTick := rfl
@[simp] theorem State.modFetcher_port (s : State) (r : Fin 5) (f : Fetcher → Fetcher) : (s.modFetcher r f).port = s.port := rfl
@[simp] theorem State.modFetcher_rr (s : State) (r : Fin 5) (f : Fetcher → Fetcher) : (s.modFetcher r f).rr = s.rr := rfl
@[simp] theorem State.modFetcher_entries (s : State) (r : Fin 5) (f : Fetcher → Fetcher) : (s.modFetcher r f).entries = s.entries := rfl
@[simp] theorem State.modFetcher_fillQueue (s : State) (r : Fin 5) (f : Fetcher → Fetcher) : (s.modFetcher r f).fillQueue = s.fillQueue := rfl
@[simp] theorem State.modFetcher_writer (s : State) (r : Fin 5) (f : Fetcher → Fetcher) : (s.modFetcher r f).writer = s.writer := rfl
@[simp] theorem State.modFetcher_interp (s : State) (r : Fin 5) (f : Fetcher → Fetcher) : (s.modFetcher r f).interp = s.interp := rfl
@[simp] theorem State.modFetcher_claim (s : State) (r : Fin 5) (f : Fetcher → Fetcher) : (s.modFetcher r f).claim = s.claim := rfl
@[simp] theorem State.modFetcher_axes (s : State) (r : Fin 5) (f : Fetcher → Fetcher) : (s.modFetcher r f).axes = s.axes := rfl
@[simp] theorem State.modFetcher_groups (s : State) (r : Fin 5) (f : Fetcher → Fetcher) : (s.modFetcher r f).groups = s.groups := rfl
@[simp] theorem State.modFetcher_lines (s : State) (r : Fin 5) (f : Fetcher → Fetcher) : (s.modFetcher r f).lines = s.lines := rfl
@[simp] theorem State.modFetcher_inputs (s : State) (r : Fin 5) (f : Fetcher → Fetcher) : (s.modFetcher r f).inputs = s.inputs := rfl
@[simp] theorem State.modFetcher_slowClock (s : State) (r : Fin 5) (f : Fetcher → Fetcher) : (s.modFetcher r f).slowClock = s.slowClock := rfl
@[simp] theorem State.modFetcher_slowDue (s : State) (r : Fin 5) (f : Fetcher → Fetcher) : (s.modFetcher r f).slowDue = s.slowDue := rfl
@[simp] theorem State.modFetcher_fastDue (s : State) (r : Fin 5) (f : Fetcher → Fetcher) : (s.modFetcher r f).fastDue = s.fastDue := rfl
@[simp] theorem State.modFetcher_pins (s : State) (r : Fin 5) (f : Fetcher → Fetcher) : (s.modFetcher r f).pins = s.pins := rfl
@[simp] theorem State.modFetcher_freeCount (s : State) (r : Fin 5) (f : Fetcher → Fetcher) : (s.modFetcher r f).freeCount = s.freeCount := rfl
@[simp] theorem State.modFetcher_axis (s : State) (r : Fin 5) (f : Fetcher → Fetcher) (b : Axis) : (s.modFetcher r f).axis b = s.axis b := rfl
@[simp] theorem State.modFetcher_entry (s : State) (r : Fin 5) (f : Fetcher → Fetcher) (k : Fin 24) : (s.modFetcher r f).entry k = s.entry k := rfl
@[simp] theorem State.modFetcher_group (s : State) (r : Fin 5) (f : Fetcher → Fetcher) (j : GroupIx) : (s.modFetcher r f).group j = s.group j := rfl
@[simp] theorem State.modFetcher_line (s : State) (r : Fin 5) (f : Fetcher → Fetcher) (m : Line) : (s.modFetcher r f).line m = s.line m := rfl

/-! ### setEntry -/

@[simp] theorem State.setEntry_pending (s : State) (e : Fin 24) (v : Entry) : (s.setEntry e v).pending = s.pending := rfl
@[simp] theorem State.setEntry_dev (s : State) (e : Fin 24) (v : Entry) : (s.setEntry e v).dev = s.dev := rfl
@[simp] theorem State.setEntry_resetCause (s : State) (e : Fin 24) (v : Entry) : (s.setEntry e v).resetCause = s.resetCause := rfl
@[simp] theorem State.setEntry_setupCode (s : State) (e : Fin 24) (v : Entry) : (s.setEntry e v).setupCode = s.setupCode := rfl
@[simp] theorem State.setEntry_failure (s : State) (e : Fin 24) (v : Entry) : (s.setEntry e v).failure = s.failure := rfl
@[simp] theorem State.setEntry_setupAddr (s : State) (e : Fin 24) (v : Entry) : (s.setEntry e v).setupAddr = s.setupAddr := rfl
@[simp] theorem State.setEntry_setupRead (s : State) (e : Fin 24) (v : Entry) : (s.setEntry e v).setupRead = s.setupRead := rfl
@[simp] theorem State.setEntry_suaLo (s : State) (e : Fin 24) (v : Entry) : (s.setEntry e v).suaLo = s.suaLo := rfl
@[simp] theorem State.setEntry_suaHi (s : State) (e : Fin 24) (v : Entry) : (s.setEntry e v).suaHi = s.suaHi := rfl
@[simp] theorem State.setEntry_postErr (s : State) (e : Fin 24) (v : Entry) : (s.setEntry e v).postErr = s.postErr := rfl
@[simp] theorem State.setEntry_headErr (s : State) (e : Fin 24) (v : Entry) : (s.setEntry e v).headErr = s.headErr := rfl
@[simp] theorem State.setEntry_cplFlag (s : State) (e : Fin 24) (v : Entry) : (s.setEntry e v).cplFlag = s.cplFlag := rfl
@[simp] theorem State.setEntry_failFlag (s : State) (e : Fin 24) (v : Entry) : (s.setEntry e v).failFlag = s.failFlag := rfl
@[simp] theorem State.setEntry_setupFlag (s : State) (e : Fin 24) (v : Entry) : (s.setEntry e v).setupFlag = s.setupFlag := rfl
@[simp] theorem State.setEntry_imod (s : State) (e : Fin 24) (v : Entry) : (s.setEntry e v).imod = s.imod := rfl
@[simp] theorem State.setEntry_writeCount (s : State) (e : Fin 24) (v : Entry) : (s.setEntry e v).writeCount = s.writeCount := rfl
@[simp] theorem State.setEntry_holdoff (s : State) (e : Fin 24) (v : Entry) : (s.setEntry e v).holdoff = s.holdoff := rfl
@[simp] theorem State.setEntry_timeRunning (s : State) (e : Fin 24) (v : Entry) : (s.setEntry e v).timeRunning = s.timeRunning := rfl
@[simp] theorem State.setEntry_time (s : State) (e : Fin 24) (v : Entry) : (s.setEntry e v).time = s.time := rfl
@[simp] theorem State.setEntry_subTick (s : State) (e : Fin 24) (v : Entry) : (s.setEntry e v).subTick = s.subTick := rfl
@[simp] theorem State.setEntry_fetchers (s : State) (e : Fin 24) (v : Entry) : (s.setEntry e v).fetchers = s.fetchers := rfl
@[simp] theorem State.setEntry_port (s : State) (e : Fin 24) (v : Entry) : (s.setEntry e v).port = s.port := rfl
@[simp] theorem State.setEntry_rr (s : State) (e : Fin 24) (v : Entry) : (s.setEntry e v).rr = s.rr := rfl
@[simp] theorem State.setEntry_fillQueue (s : State) (e : Fin 24) (v : Entry) : (s.setEntry e v).fillQueue = s.fillQueue := rfl
@[simp] theorem State.setEntry_writer (s : State) (e : Fin 24) (v : Entry) : (s.setEntry e v).writer = s.writer := rfl
@[simp] theorem State.setEntry_interp (s : State) (e : Fin 24) (v : Entry) : (s.setEntry e v).interp = s.interp := rfl
@[simp] theorem State.setEntry_claim (s : State) (e : Fin 24) (v : Entry) : (s.setEntry e v).claim = s.claim := rfl
@[simp] theorem State.setEntry_axes (s : State) (e : Fin 24) (v : Entry) : (s.setEntry e v).axes = s.axes := rfl
@[simp] theorem State.setEntry_groups (s : State) (e : Fin 24) (v : Entry) : (s.setEntry e v).groups = s.groups := rfl
@[simp] theorem State.setEntry_lines (s : State) (e : Fin 24) (v : Entry) : (s.setEntry e v).lines = s.lines := rfl
@[simp] theorem State.setEntry_inputs (s : State) (e : Fin 24) (v : Entry) : (s.setEntry e v).inputs = s.inputs := rfl
@[simp] theorem State.setEntry_slowClock (s : State) (e : Fin 24) (v : Entry) : (s.setEntry e v).slowClock = s.slowClock := rfl
@[simp] theorem State.setEntry_slowDue (s : State) (e : Fin 24) (v : Entry) : (s.setEntry e v).slowDue = s.slowDue := rfl
@[simp] theorem State.setEntry_fastDue (s : State) (e : Fin 24) (v : Entry) : (s.setEntry e v).fastDue = s.fastDue := rfl
@[simp] theorem State.setEntry_pins (s : State) (e : Fin 24) (v : Entry) : (s.setEntry e v).pins = s.pins := rfl
@[simp] theorem State.setEntry_freeCount (s : State) (e : Fin 24) (v : Entry) : (s.setEntry e v).freeCount = s.freeCount := rfl
@[simp] theorem State.setEntry_axis (s : State) (e : Fin 24) (v : Entry) (b : Axis) : (s.setEntry e v).axis b = s.axis b := rfl
@[simp] theorem State.setEntry_fetcher (s : State) (e : Fin 24) (v : Entry) (q : Fin 5) : (s.setEntry e v).fetcher q = s.fetcher q := rfl
@[simp] theorem State.setEntry_group (s : State) (e : Fin 24) (v : Entry) (j : GroupIx) : (s.setEntry e v).group j = s.group j := rfl
@[simp] theorem State.setEntry_line (s : State) (e : Fin 24) (v : Entry) (m : Line) : (s.setEntry e v).line m = s.line m := rfl

/-! ### modGroup -/

@[simp] theorem State.modGroup_pending (s : State) (g : GroupIx) (f : Group → Group) : (s.modGroup g f).pending = s.pending := rfl
@[simp] theorem State.modGroup_dev (s : State) (g : GroupIx) (f : Group → Group) : (s.modGroup g f).dev = s.dev := rfl
@[simp] theorem State.modGroup_resetCause (s : State) (g : GroupIx) (f : Group → Group) : (s.modGroup g f).resetCause = s.resetCause := rfl
@[simp] theorem State.modGroup_setupCode (s : State) (g : GroupIx) (f : Group → Group) : (s.modGroup g f).setupCode = s.setupCode := rfl
@[simp] theorem State.modGroup_failure (s : State) (g : GroupIx) (f : Group → Group) : (s.modGroup g f).failure = s.failure := rfl
@[simp] theorem State.modGroup_setupAddr (s : State) (g : GroupIx) (f : Group → Group) : (s.modGroup g f).setupAddr = s.setupAddr := rfl
@[simp] theorem State.modGroup_setupRead (s : State) (g : GroupIx) (f : Group → Group) : (s.modGroup g f).setupRead = s.setupRead := rfl
@[simp] theorem State.modGroup_suaLo (s : State) (g : GroupIx) (f : Group → Group) : (s.modGroup g f).suaLo = s.suaLo := rfl
@[simp] theorem State.modGroup_suaHi (s : State) (g : GroupIx) (f : Group → Group) : (s.modGroup g f).suaHi = s.suaHi := rfl
@[simp] theorem State.modGroup_postErr (s : State) (g : GroupIx) (f : Group → Group) : (s.modGroup g f).postErr = s.postErr := rfl
@[simp] theorem State.modGroup_headErr (s : State) (g : GroupIx) (f : Group → Group) : (s.modGroup g f).headErr = s.headErr := rfl
@[simp] theorem State.modGroup_cplFlag (s : State) (g : GroupIx) (f : Group → Group) : (s.modGroup g f).cplFlag = s.cplFlag := rfl
@[simp] theorem State.modGroup_failFlag (s : State) (g : GroupIx) (f : Group → Group) : (s.modGroup g f).failFlag = s.failFlag := rfl
@[simp] theorem State.modGroup_setupFlag (s : State) (g : GroupIx) (f : Group → Group) : (s.modGroup g f).setupFlag = s.setupFlag := rfl
@[simp] theorem State.modGroup_imod (s : State) (g : GroupIx) (f : Group → Group) : (s.modGroup g f).imod = s.imod := rfl
@[simp] theorem State.modGroup_writeCount (s : State) (g : GroupIx) (f : Group → Group) : (s.modGroup g f).writeCount = s.writeCount := rfl
@[simp] theorem State.modGroup_holdoff (s : State) (g : GroupIx) (f : Group → Group) : (s.modGroup g f).holdoff = s.holdoff := rfl
@[simp] theorem State.modGroup_timeRunning (s : State) (g : GroupIx) (f : Group → Group) : (s.modGroup g f).timeRunning = s.timeRunning := rfl
@[simp] theorem State.modGroup_time (s : State) (g : GroupIx) (f : Group → Group) : (s.modGroup g f).time = s.time := rfl
@[simp] theorem State.modGroup_subTick (s : State) (g : GroupIx) (f : Group → Group) : (s.modGroup g f).subTick = s.subTick := rfl
@[simp] theorem State.modGroup_fetchers (s : State) (g : GroupIx) (f : Group → Group) : (s.modGroup g f).fetchers = s.fetchers := rfl
@[simp] theorem State.modGroup_port (s : State) (g : GroupIx) (f : Group → Group) : (s.modGroup g f).port = s.port := rfl
@[simp] theorem State.modGroup_rr (s : State) (g : GroupIx) (f : Group → Group) : (s.modGroup g f).rr = s.rr := rfl
@[simp] theorem State.modGroup_entries (s : State) (g : GroupIx) (f : Group → Group) : (s.modGroup g f).entries = s.entries := rfl
@[simp] theorem State.modGroup_fillQueue (s : State) (g : GroupIx) (f : Group → Group) : (s.modGroup g f).fillQueue = s.fillQueue := rfl
@[simp] theorem State.modGroup_writer (s : State) (g : GroupIx) (f : Group → Group) : (s.modGroup g f).writer = s.writer := rfl
@[simp] theorem State.modGroup_interp (s : State) (g : GroupIx) (f : Group → Group) : (s.modGroup g f).interp = s.interp := rfl
@[simp] theorem State.modGroup_claim (s : State) (g : GroupIx) (f : Group → Group) : (s.modGroup g f).claim = s.claim := rfl
@[simp] theorem State.modGroup_axes (s : State) (g : GroupIx) (f : Group → Group) : (s.modGroup g f).axes = s.axes := rfl
@[simp] theorem State.modGroup_lines (s : State) (g : GroupIx) (f : Group → Group) : (s.modGroup g f).lines = s.lines := rfl
@[simp] theorem State.modGroup_inputs (s : State) (g : GroupIx) (f : Group → Group) : (s.modGroup g f).inputs = s.inputs := rfl
@[simp] theorem State.modGroup_slowClock (s : State) (g : GroupIx) (f : Group → Group) : (s.modGroup g f).slowClock = s.slowClock := rfl
@[simp] theorem State.modGroup_slowDue (s : State) (g : GroupIx) (f : Group → Group) : (s.modGroup g f).slowDue = s.slowDue := rfl
@[simp] theorem State.modGroup_fastDue (s : State) (g : GroupIx) (f : Group → Group) : (s.modGroup g f).fastDue = s.fastDue := rfl
@[simp] theorem State.modGroup_pins (s : State) (g : GroupIx) (f : Group → Group) : (s.modGroup g f).pins = s.pins := rfl
@[simp] theorem State.modGroup_freeCount (s : State) (g : GroupIx) (f : Group → Group) : (s.modGroup g f).freeCount = s.freeCount := rfl
@[simp] theorem State.modGroup_axis (s : State) (g : GroupIx) (f : Group → Group) (b : Axis) : (s.modGroup g f).axis b = s.axis b := rfl
@[simp] theorem State.modGroup_fetcher (s : State) (g : GroupIx) (f : Group → Group) (q : Fin 5) : (s.modGroup g f).fetcher q = s.fetcher q := rfl
@[simp] theorem State.modGroup_entry (s : State) (g : GroupIx) (f : Group → Group) (k : Fin 24) : (s.modGroup g f).entry k = s.entry k := rfl
@[simp] theorem State.modGroup_line (s : State) (g : GroupIx) (f : Group → Group) (m : Line) : (s.modGroup g f).line m = s.line m := rfl

/-! ### setLine -/

@[simp] theorem State.setLine_pending (s : State) (l : Line) (v : LineState) : (s.setLine l v).pending = s.pending := rfl
@[simp] theorem State.setLine_dev (s : State) (l : Line) (v : LineState) : (s.setLine l v).dev = s.dev := rfl
@[simp] theorem State.setLine_resetCause (s : State) (l : Line) (v : LineState) : (s.setLine l v).resetCause = s.resetCause := rfl
@[simp] theorem State.setLine_setupCode (s : State) (l : Line) (v : LineState) : (s.setLine l v).setupCode = s.setupCode := rfl
@[simp] theorem State.setLine_failure (s : State) (l : Line) (v : LineState) : (s.setLine l v).failure = s.failure := rfl
@[simp] theorem State.setLine_setupAddr (s : State) (l : Line) (v : LineState) : (s.setLine l v).setupAddr = s.setupAddr := rfl
@[simp] theorem State.setLine_setupRead (s : State) (l : Line) (v : LineState) : (s.setLine l v).setupRead = s.setupRead := rfl
@[simp] theorem State.setLine_suaLo (s : State) (l : Line) (v : LineState) : (s.setLine l v).suaLo = s.suaLo := rfl
@[simp] theorem State.setLine_suaHi (s : State) (l : Line) (v : LineState) : (s.setLine l v).suaHi = s.suaHi := rfl
@[simp] theorem State.setLine_postErr (s : State) (l : Line) (v : LineState) : (s.setLine l v).postErr = s.postErr := rfl
@[simp] theorem State.setLine_headErr (s : State) (l : Line) (v : LineState) : (s.setLine l v).headErr = s.headErr := rfl
@[simp] theorem State.setLine_cplFlag (s : State) (l : Line) (v : LineState) : (s.setLine l v).cplFlag = s.cplFlag := rfl
@[simp] theorem State.setLine_failFlag (s : State) (l : Line) (v : LineState) : (s.setLine l v).failFlag = s.failFlag := rfl
@[simp] theorem State.setLine_setupFlag (s : State) (l : Line) (v : LineState) : (s.setLine l v).setupFlag = s.setupFlag := rfl
@[simp] theorem State.setLine_imod (s : State) (l : Line) (v : LineState) : (s.setLine l v).imod = s.imod := rfl
@[simp] theorem State.setLine_writeCount (s : State) (l : Line) (v : LineState) : (s.setLine l v).writeCount = s.writeCount := rfl
@[simp] theorem State.setLine_holdoff (s : State) (l : Line) (v : LineState) : (s.setLine l v).holdoff = s.holdoff := rfl
@[simp] theorem State.setLine_timeRunning (s : State) (l : Line) (v : LineState) : (s.setLine l v).timeRunning = s.timeRunning := rfl
@[simp] theorem State.setLine_time (s : State) (l : Line) (v : LineState) : (s.setLine l v).time = s.time := rfl
@[simp] theorem State.setLine_subTick (s : State) (l : Line) (v : LineState) : (s.setLine l v).subTick = s.subTick := rfl
@[simp] theorem State.setLine_fetchers (s : State) (l : Line) (v : LineState) : (s.setLine l v).fetchers = s.fetchers := rfl
@[simp] theorem State.setLine_port (s : State) (l : Line) (v : LineState) : (s.setLine l v).port = s.port := rfl
@[simp] theorem State.setLine_rr (s : State) (l : Line) (v : LineState) : (s.setLine l v).rr = s.rr := rfl
@[simp] theorem State.setLine_entries (s : State) (l : Line) (v : LineState) : (s.setLine l v).entries = s.entries := rfl
@[simp] theorem State.setLine_fillQueue (s : State) (l : Line) (v : LineState) : (s.setLine l v).fillQueue = s.fillQueue := rfl
@[simp] theorem State.setLine_writer (s : State) (l : Line) (v : LineState) : (s.setLine l v).writer = s.writer := rfl
@[simp] theorem State.setLine_interp (s : State) (l : Line) (v : LineState) : (s.setLine l v).interp = s.interp := rfl
@[simp] theorem State.setLine_claim (s : State) (l : Line) (v : LineState) : (s.setLine l v).claim = s.claim := rfl
@[simp] theorem State.setLine_axes (s : State) (l : Line) (v : LineState) : (s.setLine l v).axes = s.axes := rfl
@[simp] theorem State.setLine_groups (s : State) (l : Line) (v : LineState) : (s.setLine l v).groups = s.groups := rfl
@[simp] theorem State.setLine_inputs (s : State) (l : Line) (v : LineState) : (s.setLine l v).inputs = s.inputs := rfl
@[simp] theorem State.setLine_slowClock (s : State) (l : Line) (v : LineState) : (s.setLine l v).slowClock = s.slowClock := rfl
@[simp] theorem State.setLine_slowDue (s : State) (l : Line) (v : LineState) : (s.setLine l v).slowDue = s.slowDue := rfl
@[simp] theorem State.setLine_fastDue (s : State) (l : Line) (v : LineState) : (s.setLine l v).fastDue = s.fastDue := rfl
@[simp] theorem State.setLine_pins (s : State) (l : Line) (v : LineState) : (s.setLine l v).pins = s.pins := rfl
@[simp] theorem State.setLine_freeCount (s : State) (l : Line) (v : LineState) : (s.setLine l v).freeCount = s.freeCount := rfl
@[simp] theorem State.setLine_axis (s : State) (l : Line) (v : LineState) (b : Axis) : (s.setLine l v).axis b = s.axis b := rfl
@[simp] theorem State.setLine_fetcher (s : State) (l : Line) (v : LineState) (q : Fin 5) : (s.setLine l v).fetcher q = s.fetcher q := rfl
@[simp] theorem State.setLine_entry (s : State) (l : Line) (v : LineState) (k : Fin 24) : (s.setLine l v).entry k = s.entry k := rfl
@[simp] theorem State.setLine_group (s : State) (l : Line) (v : LineState) (j : GroupIx) : (s.setLine l v).group j = s.group j := rfl

/-! ### The part an update changes -/

theorem State.modAxis_axis (s : State) (a : Axis) (f : AxisBlock → AxisBlock) (b : Axis) :
    (s.modAxis a f).axis b = if b = a then f (s.axis a) else s.axis b := by
  by_cases h : b = a
  · subst h; simp [State.modAxis, State.axis]
  · have h' : a.val ≠ b.val := fun e => h (Fin.ext e.symm)
    simp [State.modAxis, State.axis, h, Vector.getElem_set_ne, h']

@[simp] theorem State.modAxis_axis_same (s : State) (a : Axis) (f : AxisBlock → AxisBlock) :
    (s.modAxis a f).axis a = f (s.axis a) := by simp [State.modAxis_axis]

theorem State.modAxis_axis_ne (s : State) {a b : Axis} (f : AxisBlock → AxisBlock) (h : b ≠ a) :
    (s.modAxis a f).axis b = s.axis b := by simp [State.modAxis_axis, h]

@[simp] theorem State.mapAxes_axis (s : State) (f : AxisBlock → AxisBlock) (b : Axis) :
    (s.mapAxes f).axis b = f (s.axis b) := by simp [State.mapAxes, State.axis]

theorem State.modFetcher_fetcher (s : State) (r : Fin 5) (f : Fetcher → Fetcher) (q : Fin 5) :
    (s.modFetcher r f).fetcher q = if q = r then f (s.fetcher r) else s.fetcher q := by
  by_cases h : q = r
  · subst h; simp [State.modFetcher, State.fetcher]
  · have h' : r.val ≠ q.val := fun e => h (Fin.ext e.symm)
    simp [State.modFetcher, State.fetcher, h, Vector.getElem_set_ne, h']

@[simp] theorem State.modFetcher_fetcher_same (s : State) (r : Fin 5) (f : Fetcher → Fetcher) :
    (s.modFetcher r f).fetcher r = f (s.fetcher r) := by simp [State.modFetcher_fetcher]

theorem State.setEntry_entry (s : State) (e : Fin 24) (v : Entry) (k : Fin 24) :
    (s.setEntry e v).entry k = if k = e then v else s.entry k := by
  by_cases h : k = e
  · subst h; simp [State.setEntry, State.entry]
  · have h' : e.val ≠ k.val := fun c => h (Fin.ext c.symm)
    simp [State.setEntry, State.entry, h, Vector.getElem_set_ne, h']

@[simp] theorem State.setEntry_entry_same (s : State) (e : Fin 24) (v : Entry) : (s.setEntry e v).entry e = v := by
  simp [State.setEntry_entry]

theorem State.modGroup_group (s : State) (g : GroupIx) (f : Group → Group) (j : GroupIx) :
    (s.modGroup g f).group j = if j = g then f (s.group g) else s.group j := by
  by_cases h : j = g
  · subst h; simp [State.modGroup, State.group]
  · have h' : g.val ≠ j.val := fun c => h (Fin.ext c.symm)
    simp [State.modGroup, State.group, h, Vector.getElem_set_ne, h']

@[simp] theorem State.modGroup_group_same (s : State) (g : GroupIx) (f : Group → Group) :
    (s.modGroup g f).group g = f (s.group g) := by simp [State.modGroup_group]

/-- Different lines have different numbers. -/
theorem lineIx_injective (l m : Line) (h : lineIx l = lineIx m) : l = m := by
  cases l <;> cases m <;> simp only [lineIx, Fin.ext_iff, Line.encA.injEq, Line.encB.injEq, Line.encI.injEq,
    Line.limP.injEq, Line.limN.injEq, Line.home.injEq, Line.trg.injEq, reduceCtorEq] at h ⊢ <;> omega

theorem State.setLine_line (s : State) (l : Line) (v : LineState) (m : Line) :
    (s.setLine l v).line m = if m = l then v else s.line m := by
  by_cases h : m = l
  · subst h; simp [State.setLine, State.line]
  · have h' : (lineIx l).val ≠ (lineIx m).val := fun c => h (lineIx_injective m l (Fin.ext c.symm))
    simp [State.setLine, State.line, h, Vector.getElem_set_ne, h']

@[simp] theorem State.setLine_line_same (s : State) (l : Line) (v : LineState) : (s.setLine l v).line l = v := by
  simp [State.setLine_line]

/-! ### Two updates of the same part -/

@[simp] theorem State.modAxis_modAxis (s : State) (a : Axis) (f g : AxisBlock → AxisBlock) :
    (s.modAxis a f).modAxis a g = s.modAxis a (fun x => g (f x)) := by simp [State.modAxis]

end Sys2Proof.Machine
end

