-- ==== Sys2Proof/Laws/Moves.lean ====
section
/-! SUPPORT. What a command can do to an axis and to a sync group, said once: every change of an axis block is a chain of
`AxisStep`s and every change of a group entry a chain of `GroupStep`s. An invariant of one axis or one group is then a case
analysis over these two relations. `SameRest` says which parts of the state an operation of the sequencers leaves. -/

namespace Sys2Proof.Machine
open Sys2Proof

/-! ### The rest of the state -/

theorem SameRest.refl (s : State) : SameRest s s := rfl

theorem SameRest.trans {s t u : State} (h : SameRest s t) (k : SameRest t u) : SameRest s u := by
  unfold SameRest at *
  rw [k, h]
  rfl

theorem SameRest.pending {s t : State} (h : SameRest s t) : t.pending = s.pending := by rw [h]; rfl
theorem SameRest.dev {s t : State} (h : SameRest s t) : t.dev = s.dev := by rw [h]; rfl
theorem SameRest.resetCause {s t : State} (h : SameRest s t) : t.resetCause = s.resetCause := by rw [h]; rfl
theorem SameRest.setupCode {s t : State} (h : SameRest s t) : t.setupCode = s.setupCode := by rw [h]; rfl
theorem SameRest.failure {s t : State} (h : SameRest s t) : t.failure = s.failure := by rw [h]; rfl
theorem SameRest.setupAddr {s t : State} (h : SameRest s t) : t.setupAddr = s.setupAddr := by rw [h]; rfl
theorem SameRest.setupRead {s t : State} (h : SameRest s t) : t.setupRead = s.setupRead := by rw [h]; rfl
theorem SameRest.suaLo {s t : State} (h : SameRest s t) : t.suaLo = s.suaLo := by rw [h]; rfl
theorem SameRest.suaHi {s t : State} (h : SameRest s t) : t.suaHi = s.suaHi := by rw [h]; rfl
theorem SameRest.postErr {s t : State} (h : SameRest s t) : t.postErr = s.postErr := by rw [h]; rfl
theorem SameRest.headErr {s t : State} (h : SameRest s t) : t.headErr = s.headErr := by rw [h]; rfl
theorem SameRest.cplFlag {s t : State} (h : SameRest s t) : t.cplFlag = s.cplFlag := by rw [h]; rfl
theorem SameRest.failFlag {s t : State} (h : SameRest s t) : t.failFlag = s.failFlag := by rw [h]; rfl
theorem SameRest.setupFlag {s t : State} (h : SameRest s t) : t.setupFlag = s.setupFlag := by rw [h]; rfl
theorem SameRest.imod {s t : State} (h : SameRest s t) : t.imod = s.imod := by rw [h]; rfl
theorem SameRest.writeCount {s t : State} (h : SameRest s t) : t.writeCount = s.writeCount := by rw [h]; rfl
theorem SameRest.holdoff {s t : State} (h : SameRest s t) : t.holdoff = s.holdoff := by rw [h]; rfl
theorem SameRest.timeRunning {s t : State} (h : SameRest s t) : t.timeRunning = s.timeRunning := by rw [h]; rfl
theorem SameRest.time {s t : State} (h : SameRest s t) : t.time = s.time := by rw [h]; rfl
theorem SameRest.subTick {s t : State} (h : SameRest s t) : t.subTick = s.subTick := by rw [h]; rfl
theorem SameRest.port {s t : State} (h : SameRest s t) : t.port = s.port := by rw [h]; rfl
theorem SameRest.rr {s t : State} (h : SameRest s t) : t.rr = s.rr := by rw [h]; rfl
theorem SameRest.writer {s t : State} (h : SameRest s t) : t.writer = s.writer := by rw [h]; rfl
theorem SameRest.interp {s t : State} (h : SameRest s t) : t.interp = s.interp := by rw [h]; rfl
theorem SameRest.lines {s t : State} (h : SameRest s t) : t.lines = s.lines := by rw [h]; rfl
theorem SameRest.inputs {s t : State} (h : SameRest s t) : t.inputs = s.inputs := by rw [h]; rfl
theorem SameRest.slowClock {s t : State} (h : SameRest s t) : t.slowClock = s.slowClock := by rw [h]; rfl
theorem SameRest.slowDue {s t : State} (h : SameRest s t) : t.slowDue = s.slowDue := by rw [h]; rfl
theorem SameRest.fastDue {s t : State} (h : SameRest s t) : t.fastDue = s.fastDue := by rw [h]; rfl
theorem SameRest.pins {s t : State} (h : SameRest s t) : t.pins = s.pins := by rw [h]; rfl

/-! ### One axis -/

/-- What stands in an axis block at the instant its axis comes to rest: as it was, where no pulse is issued in its state;
with the pulses withheld; after the last subtraction of a ramp; or after the end of a MOVE. -/
inductive Stopped (x : AxisBlock) : AxisBlock → Prop where
  | resting : x.st.moving = false → Stopped x x
  | still : Stopped x x.still
  | ramped : x.st = .rampDown → x.rampPeriod.rate = 0 → Stopped x x.rampPeriod
  | ended : x.st = .run → Stopped x { x with rate := 0, frac := 0, periodSteps := 0 }

/-- The start rate of a MOVE record passes R5. -/
def rateOk (c : AxisConfig) (b : AxisBody) : Prop := frontInvalid c b = false

/-- One primitive change of an axis block, with what holds where the model makes it. -/
inductive AxisStep (x : AxisBlock) : AxisBlock → Prop where
  /-- the active segment retires (R18) -/
  | retire (lr : Option RecId) : AxisStep x { x with active := none, lastRetired := lr }
  /-- the held record retires (R19) -/
  | retireHeld (lr : Option RecId) : AxisStep x { x with held := none, lastRetired := lr }
  /-- the stop request changes (R46) -/
  | stopReq (q : Option StopReq) : AxisStep x { x with stopReq := q }
  /-- entry to HALTED (R59); an axis that holds a record is in WAIT_SYNC -/
  | halt (c : FaultCause) (lr : Option RecId) (o : Bool) : x.st ≠ .off ∨ x.held ≠ none →
      AxisStep x { x.still with
        active := none, held := none, stopReq := none, staging := [], cause := some c, outside := o, st := .halted
        lastRetired := lr }
  /-- the axis becomes IDLE -/
  | idle (y : AxisBlock) (l : List AxisRecord) (ac : Option Segment) (hd : Option Held) (q : Option StopReq)
      (lr : Option RecId) : Stopped x y → x.st ≠ .off → x.st ≠ .halted → (hd = none ∨ hd = x.held ∧ x.st ≠ .waitSync) →
      AxisStep x { y with st := .idle, staging := l, active := ac, held := hd, stopReq := q, lastRetired := lr }
  /-- the next period of a MOVE opens (R29 to R34) -/
  | openPeriod (m : Move) : x.st = .run → AxisStep x (x.openPeriod m)
  /-- a period of the ramp (R43) -/
  | rampPeriod : x.st = .rampDown → AxisStep x x.rampPeriod
  /-- entry to RAMP_DOWN, or a new deceleration (R42) -/
  | enterRamp (d : Nat) : x.st.moving = true → AxisStep x (x.enterRamp d)
  /-- a MOVE from rest enters RUN (R9) -/
  | enterRun (m : Move) : x.st = .idle → startRateOk x.cfg m = true → AxisStep x (x.enterRun m)
  /-- a released MOVE enters RUN (R73) -/
  | release (h : Held) (m : Move) : x.held = some h → h.record.body = .move m → AxisStep x ((unhold h x).enterRun m)
  /-- a MOVE takes over at a join (R39) -/
  | joinRun (m : Move) : x.st = .run → startRateOk x.cfg m = true → AxisStep x (x.joinRun m)
  /-- a record leaves the queue and becomes active (R7) -/
  | activate (g : Segment) : AxisStep x { x with staging := x.staging.tail, active := some g }
  /-- a released DWELL begins (R73) -/
  | releaseDwell (h : Held) : x.held = some h → AxisStep x { unhold h x with st := .dwell }
  /-- a released MOVE fails its checks (R73) -/
  | releaseHalt (h : Held) (c : FaultCause) (lr : Option RecId) (o : Bool) : x.held = some h →
      AxisStep x { (unhold h x).still with
        active := none, held := none, stopReq := none, staging := [], cause := some c, outside := o, st := .halted
        lastRetired := lr }
  /-- a DWELL begins (R11) -/
  | dwell : x.st = .idle → AxisStep x { x with st := .dwell }
  /-- a WAIT begins to wait (R12) -/
  | waitEvent : x.st = .idle → AxisStep x { x with st := .waitEvent }
  /-- a latch is cleared (R96) -/
  | clearLatch (src : Source) : AxisStep x (x.setLatch src Latch.clear)
  /-- a latch takes an event (R95) -/
  | takeLatch (src : Source) (now : Word) : AxisStep x (x.setLatch src ((x.latch src).take now))
  /-- the six latches are cleared (R96) -/
  | clearLatches : AxisStep x { x with latches := Vector.replicate 6 Latch.clear }
  /-- a reference action (R14) -/
  | applyRef (w : Wait) : AxisStep x (x.applyRef w)
  /-- a SETPOS (R16) -/
  | applySetpos (c e : Option Word) : AxisStep x (x.applySetpos c e)
  /-- an arrival (R71) -/
  | arrive (h : Held) : x.st = .idle → rateOk x.cfg h.record.body →
      AxisStep x { x with staging := x.staging.tail, held := some h, st := .waitSync }
  /-- an expiry is counted in the active segment (R11, R15) -/
  | countExpiry : AxisStep x x.countExpiry
  /-- to OFF under a quiesce or failure (R21, R22) -/
  | toOff : AxisStep x x.toOff
  /-- CONFIGURE_AXIS (R158) -/
  | configure (c : AxisConfig) : x.st = .off → firstFailing c = none →
      AxisStep x { x with cfg := c, decel := c.stopDecel }
  /-- ENABLE_AXIS (R2) -/
  | enable : x.st = .off → AxisStep x x.enabled
  /-- DISABLE_AXIS (R3) -/
  | disable : x.st = .idle ∨ x.st = .halted → AxisStep x x.disabled
  /-- CLEAR_FAULT (R64) -/
  | clear (realign : Bool) : x.st = .halted → AxisStep x (x.cleared realign)
  /-- the capture arm changes (R114 to R117, R120) -/
  | arm (m : CaptureArm) : m.missed = 0 ∨ m.missed = x.arm.missed ∨ m.missed = satInc x.arm.missed →
      AxisStep x { x with arm := m }
  /-- a reset (R23) -/
  | reset : AxisStep x x.afterReset
  /-- a record is staged (R4) -/
  | stage (r : AxisRecord) : AxisStep x { x with staging := x.staging ++ [r] }
  /-- a quadrature transition (R99) -/
  | countQuad (c : Int) (p : Bool × Bool) : AxisStep x (x.countQuad c p)
  /-- a quadrature error is counted, or not, and the pair taken as the state (R98, R101) -/
  | quadState (n : Nat) (p q : Bool) : n = x.quadErrs ∨ n = satInc x.quadErrs →
      AxisStep x { x with quadErrs := n, quadA := p, quadB := q }
  /-- the timer runs on at an expiry (R27) -/
  | expire : x.st ≠ .off → AxisStep x x.expire
  /-- the check of a HALTED axis (R62) -/
  | checkHalted : x.st = .halted → AxisStep x x.checkHalted
  /-- a pulse begins (R109) -/
  | beginPulse (l : List Nat) : AxisStep x (x.beginPulse l)
  /-- STEP returns low (R107) -/
  | endPulse : AxisStep x { x with pulse := none }
  /-- 20 ns pass -/
  | tick : AxisStep x x.tick

/-- A chain of changes of one axis block. -/
abbrev AxisRun : AxisBlock → AxisBlock → Prop := Relation.ReflTransGen AxisStep

/-! ### One group -/

/-- One primitive change of a sync group entry. -/
inductive GroupStep (x : Group) : Group → Prop where
  /-- an arrival (R71) -/
  | arrive (a : Axis) : x.st = .armed ∨ x.st = .gathering → setHas x.members a = true → GroupStep x (x.arrive a)
  /-- a release (R72) -/
  | release : GroupStep x x.released
  /-- a break (R76) -/
  | break : GroupStep x { x with st := .broken, arrived := 0, count := 0 }
  /-- DEFINE_GROUP (R68) -/
  | define (m : AxisSet) (r : Bool) (t : Option Nat) : GroupStep x (definedGroup m r t)
  /-- the entry is freed (R69, R80, R81) -/
  | free : GroupStep x Group.reset
  /-- an expiry is counted toward the timeout (R75) -/
  | tick : GroupStep x x.tick

/-- A chain of changes of one group entry. -/
abbrev GroupRun : Group → Group → Prop := Relation.ReflTransGen GroupStep

/-! ### The rings -/

/-- The fetchers, the Completion Writer and the port. -/
structure Rings where
  fetchers : Vector Fetcher 5
  writer   : Writer
  port     : Option PortUse

/-- The rings of a state. -/
def State.rings (s : State) : Rings := { fetchers := s.fetchers, writer := s.writer, port := s.port }

/-- One primitive change of a fetcher. -/
inductive FetchStep (x : Fetcher) : Fetcher → Prop where
  /-- the fetch in flight is cancelled (R127) -/
  | cancel : FetchStep x x.cancel
  /-- a head set (R130) -/
  | setHead : FetchStep x x.setHead
  /-- a tail post taken (R122) -/
  | post (t : Nat) : t < x.size → FetchStep x { x with tail := t }
  /-- a record taken (R126) -/
  | take : x.head ≠ x.tail → FetchStep x { x with head := ringNext x.head x.size }
  /-- the mirror write clears the mark (R125) -/
  | mark : FetchStep x { x with mirrorPending := false }
  /-- the fetch in flight begins or ends (R126) -/
  | flight (o : Option Fetch) : FetchStep x { x with inFlight := o }

/-- One primitive change of the rings. -/
inductive RingStep (x : Rings) : Rings → Prop where
  /-- a change of one fetcher -/
  | fetcher (r : Fin 5) (f : Fetcher) : FetchStep x.fetchers[r] f → RingStep x { x with fetchers := x.fetchers.set r f }
  /-- the port is granted or becomes free (R129); a report write needs a ring with room (R140) -/
  | port (p : Option PortUse) : (∀ e a v, p = some (.report e a v) → 0 < x.writer.size) → RingStep x { x with port := p }
  /-- a CHEAD taken (R143) -/
  | release (h : Nat) : h < x.writer.size → RingStep x { x with writer := { x.writer with hostHead := h } }
  /-- a report written (R141) -/
  | written (e : Fin 24) (a : Addr) (v : Block32) : x.port = some (.report e a v) →
      RingStep x { x with
        writer := { x.writer with tail := ringNext x.writer.tail x.writer.size, seq := x.writer.seq + 1, inFlight := none }
        port := none }
  /-- the write in flight begins or ends -/
  | flight (o : Option WriteFlight) : RingStep x { x with writer := { x.writer with inFlight := o } }
  /-- entry to ONLINE (R121, R139, R168) -/
  | online (l : List Block32) : judgeSetup l allRings = .none →
      RingStep x { x with
        fetchers := Vector.ofFn (onlineFetcher l)
        writer := { base := setupBase l 5, size := setupSize l 5, tail := 0, hostHead := 0, seq := 0, inFlight := none } }
  /-- a reset (R121, R129, R139) -/
  | reset : RingStep x { fetchers := Vector.replicate 5 Fetcher.reset, writer := Writer.reset, port := none }

/-- A chain of changes of the rings. -/
abbrev RingRun : Rings → Rings → Prop := Relation.ReflTransGen RingStep

/-! ### All of them -/

/-- Every axis, every group and the rings go from `s` to `t` by a chain of primitive changes. -/
structure Moves (s t : State) : Prop where
  axis : ∀ a, AxisRun (s.axis a) (t.axis a)
  group : ∀ g, GroupRun (s.group g) (t.group g)
  rings : RingRun s.rings t.rings

theorem Moves.refl (s : State) : Moves s s := ⟨fun _ => .refl, fun _ => .refl, .refl⟩

theorem Moves.trans {s t u : State} (h : Moves s t) (k : Moves t u) : Moves s u :=
  ⟨fun a => (h.axis a).trans (k.axis a), fun g => (h.group g).trans (k.group g), h.rings.trans k.rings⟩

/-- What the operations of the sequencers do: chains of primitive changes, and the rest of the state kept. -/
structure Seq (s t : State) : Prop extends Moves s t where
  rest : SameRest s t

theorem Seq.refl (s : State) : Seq s s := ⟨Moves.refl s, SameRest.refl s⟩

theorem Seq.trans {s t u : State} (h : Seq s t) (k : Seq t u) : Seq s u :=
  ⟨h.toMoves.trans k.toMoves, h.rest.trans k.rest⟩

/-- An operation that changes the rings alone, among the parts these relations follow. -/
theorem Moves.of_rings {s t : State} (h : t.axes = s.axes) (k : t.groups = s.groups) (j : RingRun s.rings t.rings) :
    Moves s t := by
  refine ⟨?_, ?_, j⟩
  · intro a; rw [State.axis, State.axis, h]
  · intro g; rw [State.group, State.group, k]

/-- An operation that leaves the axes, the groups and the rings. -/
theorem Moves.of_eq {s t : State} (h : t.axes = s.axes) (k : t.groups = s.groups) (j : t.rings = s.rings) : Moves s t :=
  Moves.of_rings h k (by rw [j])

/-- A change that leaves the axes, the groups and the rings, before a chain. -/
theorem Moves.pre {s u t : State} (h : Moves u t) (ha : u.axes = s.axes) (hg : u.groups = s.groups)
    (hr : u.rings = s.rings) : Moves s t :=
  (Moves.of_eq ha hg hr).trans h

/-- A change that leaves the axes, the groups and the rings, after a chain. -/
theorem Moves.post {s u t : State} (h : Moves s u) (ha : t.axes = u.axes) (hg : t.groups = u.groups)
    (hr : t.rings = u.rings) : Moves s t :=
  h.trans (Moves.of_eq ha hg hr)

/-- A change of one fetcher. -/
theorem Moves.modFetcher {s : State} {r : Fin 5} {f : Fetcher → Fetcher} (h : FetchStep (s.fetcher r) (f (s.fetcher r))) :
    Moves s (s.modFetcher r f) := Moves.of_rings rfl rfl (.single (.fetcher r _ h))

theorem Moves.modAxis {s : State} {a : Axis} {f : AxisBlock → AxisBlock} (h : AxisRun (s.axis a) (f (s.axis a))) :
    Moves s (s.modAxis a f) := by
  refine ⟨?_, fun _ => .refl, .refl⟩
  intro b
  rw [State.modAxis_axis]
  split
  · next e => subst e; exact h
  · exact .refl

theorem Seq.modAxis {s : State} {a : Axis} {f : AxisBlock → AxisBlock} (h : AxisRun (s.axis a) (f (s.axis a))) :
    Seq s (s.modAxis a f) := ⟨Moves.modAxis h, rfl⟩

theorem Seq.modGroup {s : State} {g : GroupIx} {f : Group → Group} (h : GroupRun (s.group g) (f (s.group g))) :
    Seq s (s.modGroup g f) := by
  refine ⟨⟨fun a => .refl, fun j => ?_, .refl⟩, rfl⟩
  rw [State.modGroup_group]
  split
  · next e => subst e; exact h
  · exact .refl

theorem Seq.setEntry (s : State) (e : Fin 24) (v : Entry) : Seq s (s.setEntry e v) :=
  ⟨Moves.of_eq rfl rfl rfl, rfl⟩

theorem Seq.modFetcher {s : State} {r : Fin 5} {f : Fetcher → Fetcher} (h : FetchStep (s.fetcher r) (f (s.fetcher r))) :
    Seq s (s.modFetcher r f) := ⟨Moves.modFetcher h, rfl⟩

theorem Moves.mapAxes {s : State} {f : AxisBlock → AxisBlock} (h : ∀ a, AxisRun (s.axis a) (f (s.axis a))) :
    Moves s (s.mapAxes f) := by
  refine ⟨?_, fun _ => .refl, .refl⟩
  intro a; rw [State.mapAxes_axis]; exact h a

/-- A chain over a list of operations. -/
theorem Seq.foldl {α : Type} {f : α → State → State} (h : ∀ x s, Seq s (f x s)) (l : List α) (s : State) :
    Seq s (l.foldl (fun t x => f x t) s) := by
  induction l generalizing s with
  | nil => exact Seq.refl s
  | cons x l ih => exact (h x s).trans (ih _)

/-- A chain over a list of operations in the order of the free value. -/
theorem Seq.inSomeOrder {α : Type} {f : α → State → State} (h : ∀ x s, Seq s (f x s)) (l : List α) (s : State) :
    Seq s (inSomeOrder l f s) :=
  Seq.trans (t := { s with freeCount := s.freeCount + l.length }) ⟨Moves.of_eq rfl rfl rfl, rfl⟩ (Seq.foldl h _ _)

end Sys2Proof.Machine
end

