-- ==== Sys2Proof/Laws/Sequencer.lean ====
section
/-! SUPPORT. One lemma per operation of the sequencers and the group table: what it does to an axis block, in one equation
where it acts on one axis, and that it is a chain of primitive changes that leaves the rest of the state (`Seq`). -/

namespace Sys2Proof.Machine
open Sys2Proof

/-! ### The completion buffer -/

theorem fill_seq (e : Fin 24) (r : Report) (s : State) : Seq s (fill e r s) := by
  unfold fill
  split
  · exact Seq.refl s
  · exact ⟨Moves.of_eq rfl rfl rfl, rfl⟩

theorem release_seq (e : Fin 24) (s : State) : Seq s (release e s) := by
  unfold release
  split
  · split <;> exact ⟨Moves.of_eq rfl rfl rfl, rfl⟩
  · exact Seq.setEntry ..

@[simp] theorem fill_axes (e : Fin 24) (r : Report) (s : State) : (fill e r s).axes = s.axes := by
  unfold fill; split <;> rfl
@[simp] theorem fill_axis (e : Fin 24) (r : Report) (s : State) (a : Axis) : (fill e r s).axis a = s.axis a := by
  simp [State.axis]
@[simp] theorem fill_groups (e : Fin 24) (r : Report) (s : State) : (fill e r s).groups = s.groups := by
  unfold fill; split <;> rfl
@[simp] theorem fill_group (e : Fin 24) (r : Report) (s : State) (g : GroupIx) : (fill e r s).group g = s.group g := by
  simp [State.group]
@[simp] theorem fill_fetchers (e : Fin 24) (r : Report) (s : State) : (fill e r s).fetchers = s.fetchers := by
  unfold fill; split <;> rfl
@[simp] theorem fill_fetcher (e : Fin 24) (r : Report) (s : State) (q : Fin 5) :
    (fill e r s).fetcher q = s.fetcher q := by simp [State.fetcher]

/-- A fill in a device that is not FAILED. -/
theorem fill_of_ne (e : Fin 24) (r : Report) {s : State} (h : s.dev ≠ .failed) :
    fill e r s = { s.setEntry e (.filled r) with fillQueue := s.fillQueue ++ [e] } := by
  unfold fill; rw [if_neg h]

@[simp] theorem release_axes (e : Fin 24) (s : State) : (release e s).axes = s.axes := by
  unfold release; split <;> (try split) <;> rfl
@[simp] theorem release_axis (e : Fin 24) (s : State) (a : Axis) : (release e s).axis a = s.axis a := by
  simp [State.axis]
@[simp] theorem release_groups (e : Fin 24) (s : State) : (release e s).groups = s.groups := by
  unfold release; split <;> (try split) <;> rfl
@[simp] theorem release_group (e : Fin 24) (s : State) (g : GroupIx) : (release e s).group g = s.group g := by
  simp [State.group]
@[simp] theorem release_fetchers (e : Fin 24) (s : State) : (release e s).fetchers = s.fetchers := by
  unfold release; split <;> (try split) <;> rfl

theorem SameRest.modAxis {s t : State} (h : SameRest s t) {a : Axis} {f : AxisBlock → AxisBlock} :
    SameRest s (t.modAxis a f) := h.trans rfl
theorem SameRest.modFetcher {s t : State} (h : SameRest s t) {r : Fin 5} {f : Fetcher → Fetcher} :
    SameRest s (t.modFetcher r f) := h.trans rfl
theorem SameRest.setEntry {s t : State} (h : SameRest s t) {e : Fin 24} {v : Entry} :
    SameRest s (t.setEntry e v) := h.trans rfl
theorem SameRest.fill {s t : State} (h : SameRest s t) {e : Fin 24} {r : Report} :
    SameRest s (Machine.fill e r t) := h.trans (fill_seq ..).rest

/-- With no record in hand a release frees the entry and does nothing else. -/
theorem release_of_waiting (e : Fin 24) {s : State} (h : s.interp = .waiting) : release e s = s.setEntry e .free := by
  simp [release, h, Interp.wantsGeneral]

/-- What the pool gives: a FREE general entry, then RESERVED to the one who asked (R135). -/
theorem takeGeneral_eq {h : Holder} {s t : State} {e : Fin 24} (k : takeGeneral h s = some (e, t)) :
    t = s.setEntry e (.reserved h) ∧ (s.entry e).isFree = true ∧ e.val < 16 := by
  unfold takeGeneral at k
  cases hf : s.freeGeneral with
  | none => simp [hf] at k
  | some e' =>
    simp only [hf, Option.map_some, Option.some.injEq, Prod.mk.injEq] at k
    obtain ⟨rfl, rfl⟩ := k
    refine ⟨rfl, ?_, ?_⟩
    · exact List.find?_some (p := fun e => (s.entry e).isFree) hf
    · have := List.mem_of_find?_eq_some hf
      exact (by decide : ∀ k ∈ generalEntries, k.val < 16) e' this

theorem takeGeneral_seq {h : Holder} {s t : State} {e : Fin 24} (k : takeGeneral h s = some (e, t)) : Seq s t := by
  rw [(takeGeneral_eq k).1]; exact Seq.setEntry ..

/-! ### Retirement -/

/-- An axis block after its active segment has retired. -/
def AxisBlock.retired (x : AxisBlock) : AxisBlock :=
  match x.active with
  | none => x
  | some g => { x with active := none, lastRetired := some g.record.id }

/-- An axis block after its held record has retired. -/
def AxisBlock.heldRetired (x : AxisBlock) : AxisBlock :=
  match x.held with
  | none => x
  | some h => { x with held := none, lastRetired := some h.record.id }

theorem AxisBlock.retired_eq (x : AxisBlock) : ∃ lr, x.retired = { x with active := none, lastRetired := lr } := by
  unfold AxisBlock.retired
  split
  · next h => exact ⟨x.lastRetired, by rw [← h]⟩
  · exact ⟨_, rfl⟩

theorem AxisBlock.heldRetired_eq (x : AxisBlock) : ∃ lr, x.heldRetired = { x with held := none, lastRetired := lr } := by
  unfold AxisBlock.heldRetired
  split
  · next h => exact ⟨x.lastRetired, by rw [← h]⟩
  · exact ⟨_, rfl⟩

theorem AxisBlock.bothRetired_eq (x : AxisBlock) :
    ∃ lr, x.retired.heldRetired = { x with active := none, held := none, lastRetired := lr } := by
  obtain ⟨l, hl⟩ := x.retired_eq
  obtain ⟨k, hk⟩ := x.retired.heldRetired_eq
  exact ⟨k, by rw [hk, hl]⟩

theorem reportSegment_seq (a : Axis) (r : AxisRecord) (e : Fin 24) (st : Status) (c : Option FaultCause)
    (w : Word × Word) (s : State) : Seq s (reportSegment a r e st c w s) := by
  unfold reportSegment
  split
  · exact fill_seq ..
  · exact release_seq ..

@[simp] theorem reportSegment_axis (a : Axis) (r : AxisRecord) (e : Fin 24) (st : Status) (c : Option FaultCause)
    (w : Word × Word) (s : State) (b : Axis) : (reportSegment a r e st c w s).axis b = s.axis b := by
  unfold reportSegment; split <;> simp
@[simp] theorem reportSegment_group (a : Axis) (r : AxisRecord) (e : Fin 24) (st : Status) (c : Option FaultCause)
    (w : Word × Word) (s : State) (g : GroupIx) : (reportSegment a r e st c w s).group g = s.group g := by
  unfold reportSegment; split <;> simp
@[simp] theorem reportSegment_fetchers (a : Axis) (r : AxisRecord) (e : Fin 24) (st : Status) (c : Option FaultCause)
    (w : Word × Word) (s : State) : (reportSegment a r e st c w s).fetchers = s.fetchers := by
  unfold reportSegment; split <;> simp

theorem ite_self_axis (s : State) (a b : Axis) : s.axis b = if b = a then s.axis a else s.axis b := by
  split
  · next h => rw [h]
  · rfl

theorem retireActive_axis (a : Axis) (st : Status) (c : Option FaultCause) (w : Segment → Word × Word) (s : State)
    (b : Axis) : (retireActive a st c w s).axis b = if b = a then (s.axis a).retired else s.axis b := by
  unfold retireActive AxisBlock.retired
  cases h : (s.axis a).active with
  | none => exact ite_self_axis s a b
  | some g => simp [State.modAxis_axis]

theorem retireHeld_axis (a : Axis) (st : Status) (c : Option FaultCause) (s : State) (b : Axis) :
    (retireHeld a st c s).axis b = if b = a then (s.axis a).heldRetired else s.axis b := by
  unfold retireHeld AxisBlock.heldRetired
  cases h : (s.axis a).held with
  | none => exact ite_self_axis s a b
  | some g => simp [State.modAxis_axis]

theorem retireCurrent_axis (a : Axis) (st : Status) (c : Option FaultCause) (s : State) (b : Axis) :
    (retireCurrent a st c s).axis b = if b = a then (s.axis a).retired.heldRetired else s.axis b := by
  unfold retireCurrent
  rw [retireHeld_axis, retireActive_axis, retireActive_axis]
  split <;> simp

theorem retireActive_seq (a : Axis) (st : Status) (c : Option FaultCause) (w : Segment → Word × Word) (s : State) :
    Seq s (retireActive a st c w s) := by
  unfold retireActive
  split
  · exact Seq.refl s
  · exact (reportSegment_seq ..).trans (Seq.modAxis (.single (.retire _)))

theorem retireHeld_seq (a : Axis) (st : Status) (c : Option FaultCause) (s : State) :
    Seq s (retireHeld a st c s) := by
  unfold retireHeld
  split
  · exact Seq.refl s
  · exact (reportSegment_seq ..).trans (Seq.modAxis (.single (.retireHeld _)))

theorem retireCurrent_seq (a : Axis) (st : Status) (c : Option FaultCause) (s : State) :
    Seq s (retireCurrent a st c s) := (retireActive_seq ..).trans (retireHeld_seq ..)

@[simp] theorem retireActive_group (a : Axis) (st : Status) (c : Option FaultCause) (w : Segment → Word × Word)
    (s : State) (g : GroupIx) : (retireActive a st c w s).group g = s.group g := by
  unfold retireActive; split <;> simp
@[simp] theorem retireHeld_group (a : Axis) (st : Status) (c : Option FaultCause) (s : State) (g : GroupIx) :
    (retireHeld a st c s).group g = s.group g := by unfold retireHeld; split <;> simp
@[simp] theorem retireCurrent_group (a : Axis) (st : Status) (c : Option FaultCause) (s : State) (g : GroupIx) :
    (retireCurrent a st c s).group g = s.group g := by simp [retireCurrent]
@[simp] theorem retireActive_fetchers (a : Axis) (st : Status) (c : Option FaultCause) (w : Segment → Word × Word)
    (s : State) : (retireActive a st c w s).fetchers = s.fetchers := by unfold retireActive; split <;> simp
@[simp] theorem retireHeld_fetchers (a : Axis) (st : Status) (c : Option FaultCause) (s : State) :
    (retireHeld a st c s).fetchers = s.fetchers := by unfold retireHeld; split <;> simp
@[simp] theorem retireCurrent_fetchers (a : Axis) (st : Status) (c : Option FaultCause) (s : State) :
    (retireCurrent a st c s).fetchers = s.fetchers := by simp [retireCurrent]

/-! ### Halts -/

/-- An axis block after a halt (R59). -/
def AxisBlock.haltedBy (c : FaultCause) (x : AxisBlock) : AxisBlock :=
  { x.still.retired.heldRetired with
    stopReq := none, staging := [], cause := some c, outside := x.outsideWindow, st := .halted }

theorem failStopReq_axis (a : Axis) (c : FaultCause) (s : State) (b : Axis) :
    (failStopReq a c s).axis b = if b = a then { s.axis a with stopReq := none } else s.axis b := by
  unfold failStopReq
  split
  · next h =>
    split
    · next e => subst e; simp [← h]
    · rfl
  · simp [State.modAxis_axis]

@[simp] theorem failStopReq_group (a : Axis) (c : FaultCause) (s : State) (g : GroupIx) :
    (failStopReq a c s).group g = s.group g := by unfold failStopReq; split <;> simp
@[simp] theorem failStopReq_fetchers (a : Axis) (c : FaultCause) (s : State) :
    (failStopReq a c s).fetchers = s.fetchers := by unfold failStopReq; split <;> simp

theorem failStopReq_rest (a : Axis) (c : FaultCause) (s : State) : SameRest s (failStopReq a c s) := by
  unfold failStopReq
  split
  · exact SameRest.refl s
  · exact (fill_seq ..).rest.trans rfl

/-- What a halt does to the axes (R59). -/
theorem haltCore_axis (a : Axis) (c : FaultCause) (id : RecId) (s : State) (b : Axis) :
    (haltCore a c id s).axis b = if b = a then (s.axis a).haltedBy c else s.axis b := by
  obtain ⟨lr, hl⟩ := (s.axis a).still.bothRetired_eq
  by_cases h : b = a
  · subst h
    simp [haltCore, failStopReq_axis, retireCurrent_axis, AxisBlock.haltedBy, hl]
    rfl
  · simp [haltCore, State.modAxis_axis, failStopReq_axis, retireCurrent_axis, h]

@[simp] theorem haltCore_group (a : Axis) (c : FaultCause) (id : RecId) (s : State) (g : GroupIx) :
    (haltCore a c id s).group g = s.group g := by simp [haltCore]

theorem haltCore_rest (a : Axis) (c : FaultCause) (id : RecId) (s : State) : SameRest s (haltCore a c id s) := by
  refine SameRest.trans (t := s.modAxis a AxisBlock.still) rfl ?_
  refine (retireCurrent_seq a .halted (some c) _).rest.trans ?_
  refine (failStopReq_rest a c _).trans ?_
  exact SameRest.trans (by rfl) (fill_seq ..).rest

theorem AxisBlock.haltedBy_step (c : FaultCause) {x : AxisBlock} (h : x.st ≠ .off ∨ x.held ≠ none) :
    AxisStep x (x.haltedBy c) := by
  obtain ⟨lr, hl⟩ := x.still.bothRetired_eq
  rw [AxisBlock.haltedBy, hl]
  exact .halt c lr x.outsideWindow h

/-- The rings after an operation of the sequencers that left the fetchers. -/
theorem SameRest.rings_of {s t : State} (h : SameRest s t) (k : t.fetchers = s.fetchers) : RingRun s.rings t.rings := by
  rw [State.rings, State.rings, k, h.writer, h.port]

/-- The rings after an operation of the sequencers that changed one fetcher. -/
theorem SameRest.rings_mod {s t : State} (h : SameRest s t) {r : Fin 5} {f : Fetcher → Fetcher}
    (k : t.fetchers = (s.modFetcher r f).fetchers) (hs : FetchStep (s.fetcher r) (f (s.fetcher r))) :
    RingRun s.rings t.rings := by
  have : t.rings = (s.modFetcher r f).rings := by rw [State.rings, State.rings, k, h.writer, h.port]; rfl
  rw [this]
  exact (Moves.modFetcher hs).rings

theorem haltCore_fetchers (a : Axis) (c : FaultCause) (id : RecId) (s : State) :
    (haltCore a c id s).fetchers = (s.modFetcher (axisRing a) Fetcher.cancel).fetchers := by
  simp [haltCore, State.modFetcher]

theorem haltCore_rings (a : Axis) (c : FaultCause) (id : RecId) (s : State) :
    RingRun s.rings (haltCore a c id s).rings :=
  (haltCore_rest a c id s).rings_mod (haltCore_fetchers a c id s) .cancel

theorem Seq.of_axis {s t : State} (a : Axis) (x : AxisBlock) (ha : ∀ b, t.axis b = if b = a then x else s.axis b)
    (h : AxisRun (s.axis a) x) (hg : ∀ g, t.group g = s.group g) (hr : SameRest s t) (hq : RingRun s.rings t.rings) :
    Seq s t := by
  refine ⟨⟨fun b => ?_, fun g => by rw [hg g], hq⟩, hr⟩
  rw [ha b]
  split
  · next e => subst e; exact h
  · exact .refl

theorem haltCore_seq (a : Axis) (c : FaultCause) (id : RecId) {s : State}
    (h : (s.axis a).st ≠ .off ∨ (s.axis a).held ≠ none) : Seq s (haltCore a c id s) :=
  Seq.of_axis a _ (haltCore_axis a c id s) (.single (AxisBlock.haltedBy_step c h)) (haltCore_group a c id s)
    (haltCore_rest a c id s) (haltCore_rings a c id s)

theorem modAxis_seq {s : State} {a : Axis} {f : AxisBlock → AxisBlock} (h : AxisStep (s.axis a) (f (s.axis a))) :
    Seq s (s.modAxis a f) := Seq.modAxis (.single h)

/-! ### Breaks -/

theorem haltMember_seq (a : Axis) (s : State) : Seq s (haltMember a s) := by
  unfold haltMember
  split
  · exact Seq.refl s
  · next k hk => exact haltCore_seq a _ _ (.inr (by simp [hk]))

theorem breakGroup_seq (g : GroupIx) (m : AxisSet) (s : State) : Seq s (breakGroup g m s) := by
  unfold breakGroup
  split
  · exact Seq.modGroup (.single .break)
  · exact (Seq.modGroup (.single .break)).trans (Seq.inSomeOrder haltMember_seq _ _)

theorem depart_seq (g? : Option GroupIx) (a : Axis) (s : State) : Seq s (depart g? a s) := by
  unfold depart
  split
  · exact Seq.refl s
  · split
    · exact breakGroup_seq ..
    · exact Seq.refl s

theorem haltAxis_seq (a : Axis) (c : FaultCause) (id : RecId) {s : State} (h : (s.axis a).st ≠ .off) :
    Seq s (haltAxis a c id s) := (haltCore_seq a c id (.inl h)).trans (depart_seq ..)

theorem haltCurrent_seq (a : Axis) (c : FaultCause) {s : State} (h : (s.axis a).st ≠ .off) :
    Seq s (haltCurrent a c s) := haltAxis_seq a c _ h

/-! ### The rest instant -/

/-- What a rest instant does to its axis before any break (R51). -/
def AxisBlock.rested (x : AxisBlock) : AxisBlock :=
  { x.retired.heldRetired with staging := [], stopReq := none, st := .idle }

theorem AxisBlock.rested_step {x y : AxisBlock} (h : Stopped x y) (ho : x.st ≠ .off) (hh : x.st ≠ .halted) :
    AxisStep x y.rested := by
  obtain ⟨lr, hl⟩ := y.bothRetired_eq
  rw [AxisBlock.rested, hl]
  exact .idle y [] none none none lr h ho hh (.inl rfl)

/-- The rest instant, with what stood in the axis block just before `f` brought the axis to rest. -/
theorem restInstant_seq (a : Axis) (q : StopReq) {s : State} (f : AxisBlock → AxisBlock)
    (h : Stopped (s.axis a) (f (s.axis a))) (ho : (s.axis a).st ≠ .off) (hh : (s.axis a).st ≠ .halted) :
    Seq s (restInstant a q (s.modAxis a f)) := by
  unfold restInstant
  refine Seq.trans (t := (fill _ _ _).modAxis a _) ?_ (depart_seq ..)
  refine Seq.of_axis a ((f (s.axis a)).rested) (fun b => ?_) (.single (AxisBlock.rested_step h ho hh)) (fun g => ?_) ?hr ?hq
  · by_cases e : b = a
    · subst e
      simp [retireCurrent_axis, AxisBlock.rested]
    · simp [State.modAxis_axis, retireCurrent_axis, e]
  · simp
  case hr =>
    apply SameRest.modAxis
    apply SameRest.fill
    apply SameRest.modFetcher
    apply SameRest.modAxis
    exact SameRest.trans (t := s.modAxis a f) rfl (retireCurrent_seq ..).rest
  case hq =>
    refine SameRest.rings_mod (r := axisRing a) (f := Fetcher.setHead) ?_ (by simp [State.modFetcher]) .setHead
    apply SameRest.modAxis
    apply SameRest.fill
    apply SameRest.modFetcher
    apply SameRest.modAxis
    exact SameRest.trans (t := s.modAxis a f) rfl (retireCurrent_seq ..).rest

@[simp] theorem State.modAxis_id (s : State) (a : Axis) : s.modAxis a (fun x => x) = s := by simp [State.modAxis]

theorem restInstant_seq' (a : Axis) (q : StopReq) {s : State} (h : (s.axis a).st.moving = false)
    (ho : (s.axis a).st ≠ .off) (hh : (s.axis a).st ≠ .halted) : Seq s (restInstant a q s) := by
  have := restInstant_seq a q (f := fun x => x) (.resting h) ho hh
  rwa [State.modAxis_id] at this

/-- The active record retires and its axis becomes IDLE. -/
theorem retireActive_idle_seq (a : Axis) (st : Status) (c : Option FaultCause) (w : Segment → Word × Word) {s : State}
    (f : AxisBlock → AxisBlock) (h : Stopped (s.axis a) (f (s.axis a))) (ho : (s.axis a).st ≠ .off)
    (hh : (s.axis a).st ≠ .halted) (hs : (s.axis a).st ≠ .waitSync) (hf : (f (s.axis a)).held = (s.axis a).held) :
    Seq s ((retireActive a st c w (s.modAxis a f)).modAxis a fun x => { x with st := .idle }) := by
  obtain ⟨lr, hl⟩ := (f (s.axis a)).retired_eq
  refine Seq.of_axis a { (f (s.axis a)).retired with st := .idle } (fun b => ?_) ?_ (fun g => ?_) ?_
    (SameRest.rings_of (SameRest.modAxis (SameRest.trans (t := s.modAxis a f) rfl (retireActive_seq ..).rest)) (by simp))
  · by_cases e : b = a
    · subst e; simp [retireActive_axis]
    · simp [State.modAxis_axis, retireActive_axis, e]
  · rw [hl]
    exact .single (.idle (f (s.axis a)) (f (s.axis a)).staging none (f (s.axis a)).held (f (s.axis a)).stopReq lr h ho hh
      (.inr ⟨hf, hs⟩))
  · simp
  · exact SameRest.modAxis (SameRest.trans (t := s.modAxis a f) rfl (retireActive_seq ..).rest)

/-- The active and held records retire and their axis becomes IDLE. -/
theorem retireCurrent_idle_seq (a : Axis) (st : Status) (c : Option FaultCause) {s : State}
    (f : AxisBlock → AxisBlock) (h : Stopped (s.axis a) (f (s.axis a))) (ho : (s.axis a).st ≠ .off)
    (hh : (s.axis a).st ≠ .halted) :
    Seq s ((retireCurrent a st c (s.modAxis a f)).modAxis a fun x => { x with st := .idle }) := by
  obtain ⟨lr, hl⟩ := (f (s.axis a)).bothRetired_eq
  refine Seq.of_axis a { (f (s.axis a)).retired.heldRetired with st := .idle } (fun b => ?_) ?_ (fun g => ?_) ?_
    (SameRest.rings_of (SameRest.modAxis (SameRest.trans (t := s.modAxis a f) rfl (retireCurrent_seq ..).rest)) (by simp))
  · by_cases e : b = a
    · subst e; simp [retireCurrent_axis]
    · simp [State.modAxis_axis, retireCurrent_axis, e]
  · rw [hl]
    exact .single (.idle (f (s.axis a)) (f (s.axis a)).staging none none (f (s.axis a)).stopReq lr h ho hh (.inl rfl))
  · simp
  · exact SameRest.modAxis (SameRest.trans (t := s.modAxis a f) rfl (retireCurrent_seq ..).rest)

/-! ### Activation from rest -/

theorem startMove_seq (a : Axis) (m : Move) {s : State} (h : (s.axis a).st = .idle)
    (hr : startRateOk (s.axis a).cfg m = true) : Seq s (startMove a m s) := by
  unfold startMove
  split
  · exact haltCore_seq a _ _ (.inl (by simp [h]))
  · exact modAxis_seq (.enterRun m h hr)

theorem AxisBlock.applyRef_st (w : Wait) (x : AxisBlock) : (x.applyRef w).st = x.st := by
  unfold AxisBlock.applyRef; split <;> rfl

theorem completeWait_seq (a : Axis) (w : Wait) {s : State} (h : (s.axis a).st.moving = false)
    (ho : (s.axis a).st ≠ .off) (hh : (s.axis a).st ≠ .halted) (hs : (s.axis a).st ≠ .waitSync) :
    Seq s (completeWait a w s) := by
  unfold completeWait
  refine Seq.trans (t := s.modAxis a fun x => (x.setLatch w.src Latch.clear).applyRef w)
    (Seq.modAxis (.tail (.single (.clearLatch w.src)) (.applyRef w))) ?_
  generalize hu : (s.modAxis a fun x => (x.setLatch w.src Latch.clear).applyRef w) = u
  have hst : (u.axis a).st = (s.axis a).st := by rw [← hu, State.modAxis_axis_same, AxisBlock.applyRef_st]; rfl
  have := retireActive_idle_seq a .ok none
    (fun _ => (((s.axis a).latch w.src).time, BitVec.ofNat 32 (bnat ((s.axis a).latch w.src).overrun))) (s := u)
    (fun x => x) (.resting (by rw [hst]; exact h)) (by rw [hst]; exact ho) (by rw [hst]; exact hh)
    (by rw [hst]; exact hs) rfl
  rwa [State.modAxis_id] at this

/-! ### Arrival and release -/

theorem releaseMember_seq (a : Axis) (s : State) : Seq s (releaseMember a s) := by
  unfold releaseMember
  split
  · exact Seq.refl s
  · next h hh =>
    split
    · next m hm =>
      unfold startMove
      dsimp only
      split
      · next c hc =>
        obtain ⟨lr, hl⟩ := (unhold h (s.axis a)).still.bothRetired_eq
        refine Seq.of_axis a ((unhold h (s.axis a)).haltedBy c) (fun b => ?_) (.single ?_) (fun g => ?_) ?_
          (haltCore_rings a c _ ((s.modAxis a (unhold h)).setEntry h.entry (.reserved (.axisRecord a))))
        · by_cases e : b = a
          · subst e; simp [haltCore_axis]
          · simp [haltCore_axis, State.modAxis_axis, e]
        · rw [AxisBlock.haltedBy, hl]
          exact .releaseHalt h c lr _ hh
        · simp
        · exact SameRest.trans (t := (s.modAxis a (unhold h)).setEntry h.entry _) rfl (haltCore_rest ..)
      · refine Seq.of_axis a ((unhold h (s.axis a)).enterRun m) (fun b => ?_) (.single (.release h m hh hm))
          (fun g => ?_) rfl .refl
        · by_cases e : b = a
          · subst e; simp
          · simp [State.modAxis_axis, e]
        · simp
    · refine Seq.of_axis a { unhold h (s.axis a) with st := .dwell } (fun b => ?_) (.single (.releaseDwell h hh))
        (fun g => ?_) rfl .refl
      · by_cases e : b = a
        · subst e; simp
        · simp [State.modAxis_axis, e]
      · simp

theorem releaseGroup_seq (g : GroupIx) (s : State) : Seq s (releaseGroup g s) := by
  unfold releaseGroup
  exact (Seq.modGroup (.single .release)).trans
    ((Seq.foldl releaseMember_seq _ _).trans (Seq.inSomeOrder releaseMember_seq _ _))

theorem arrive_seq (a : Axis) (g : GroupIx) (r : AxisRecord) (e : Fin 24) {s : State} (h : (s.axis a).st = .idle)
    (hr : rateOk (s.axis a).cfg r.body) (hm : setHas (s.group g).members a = true)
    (hg : (s.group g).st = .armed ∨ (s.group g).st = .gathering) : Seq s (arrive a g r e s) := by
  have k : Seq s ((s.modAxis a fun x =>
      { x with staging := x.staging.tail, held := some { record := r, group := g, entry := e }, st := .waitSync }).modGroup
      g (Group.arrive a)) :=
    (modAxis_seq (.arrive { record := r, group := g, entry := e } h hr)).trans (Seq.modGroup (.single (.arrive a hg hm)))
  unfold arrive
  dsimp only
  split
  · exact k.trans (releaseGroup_seq ..)
  · exact k

theorem judgeTagged_seq (a : Axis) (g : GroupIx) (r : AxisRecord) {s : State} (h : (s.axis a).st = .idle)
    (hr : rateOk (s.axis a).cfg r.body) : Seq s (judgeTagged a g r s) := by
  have ho : (s.axis a).st ≠ .off := by simp [h]
  unfold judgeTagged
  split
  · exact haltAxis_seq a _ _ ho
  · next h1 =>
    split
    · exact haltAxis_seq a _ _ ho
    · next h2 =>
      split
      · exact Seq.refl s
      · next e t k =>
        simp only [Bool.or_eq_true, decide_eq_true_eq, Bool.not_eq_true', not_or, Bool.not_eq_false] at h1
        refine (takeGeneral_seq k).trans ?_
        rw [(takeGeneral_eq k).1]
        refine arrive_seq a g r e (by simpa using h) (by simpa using hr) (by simpa using h1.2) ?_
        simp only [State.setEntry_group]
        cases hst : (s.group g).st <;> simp_all

/-! ### An axis after a retirement -/

theorem AxisBlock.retired_st (x : AxisBlock) : x.retired.st = x.st := by
  obtain ⟨lr, h⟩ := x.retired_eq; rw [h]
theorem AxisBlock.retired_cfg (x : AxisBlock) : x.retired.cfg = x.cfg := by
  obtain ⟨lr, h⟩ := x.retired_eq; rw [h]
theorem AxisBlock.applySetpos_st (c e : Option Word) (x : AxisBlock) : (x.applySetpos c e).st = x.st := by
  unfold AxisBlock.applySetpos; cases c <;> cases e <;> rfl

@[simp] theorem retireActive_axis_st (a : Axis) (st : Status) (c : Option FaultCause) (w : Segment → Word × Word)
    (s : State) (b : Axis) : ((retireActive a st c w s).axis b).st = (s.axis b).st := by
  rw [retireActive_axis]; split
  · next e => rw [AxisBlock.retired_st, e]
  · rfl
@[simp] theorem retireActive_axis_cfg (a : Axis) (st : Status) (c : Option FaultCause) (w : Segment → Word × Word)
    (s : State) (b : Axis) : ((retireActive a st c w s).axis b).cfg = (s.axis b).cfg := by
  rw [retireActive_axis]; split
  · next e => rw [AxisBlock.retired_cfg, e]
  · rfl
/-! ### Going to OFF -/

theorem cancelForOff_seq (s : State) : Seq s (cancelForOff s) := by
  unfold cancelForOff
  exact Seq.foldl (f := fun a t => if (s.axis a).st = .off then t else t.modFetcher (axisRing a) Fetcher.cancel)
    (fun a t => by split; exacts [Seq.refl t, Seq.modFetcher .cancel]) _ _

theorem AxisBlock.toOff_disarm_run (x : AxisBlock) : AxisRun x x.toOff.disarm :=
  .tail (.single .toOff) (.arm _ (.inr (.inl rfl)))

theorem offIfAtRest_seq (s : State) : Seq s (offIfAtRest s) := by
  unfold offIfAtRest
  split
  · exact (cancelForOff_seq s).trans ⟨Moves.mapAxes fun a => AxisBlock.toOff_disarm_run _, rfl⟩
  · exact Seq.refl s

end Sys2Proof.Machine
end

