-- ==== Sys2Proof/Laws/Control.lean ====
section
/-! SUPPORT. One lemma per operation of the Control Interpreter: a chain of primitive changes (`Seq` where the rest of the state
stays, `Moves` where it does not), and what delivery comes to where the device is ONLINE with an entry to be had. -/

namespace Sys2Proof.Machine
open Sys2Proof

theorem complete_seq (c : CtlRecord) (e : Fin 24) (st : Status) (n k : Nat) (x y : Word) (s : State) :
    Seq s (complete c e st n k x y s) := fill_seq ..

theorem completePlain_seq (c : CtlRecord) (e : Fin 24) (st : Status) (s : State) : Seq s (completePlain c e st s) :=
  fill_seq ..

/-! ### The records -/

theorem acceptConfigureAxis_seq (c : CtlRecord) (e : Fin 24) (a : Axis) (cfg : AxisConfig) (s : State) :
    Seq s (acceptConfigureAxis c e a cfg s) := by
  unfold acceptConfigureAxis
  split
  · next h =>
    split
    · exact complete_seq ..
    · next k =>
      exact (modAxis_seq (f := fun x => { x with cfg := cfg, decel := cfg.stopDecel }) (.configure cfg h k)).trans
        (completePlain_seq ..)
  · exact completePlain_seq ..

theorem restartSlowClock_moves (cfg : InputsConfig) (s : State) : Moves s (restartSlowClock cfg s) := by
  unfold restartSlowClock; split <;> exact Moves.of_eq rfl rfl rfl

/-- The settings of the qualifier change, and every run becomes 0. -/
theorem setInputs_moves (cfg : InputsConfig) (l : Vector LineState 28) (s : State) :
    Moves s { s with inputs := cfg, lines := l } := Moves.of_eq rfl rfl rfl

theorem acceptConfigureInputs_moves (c : CtlRecord) (e : Fin 24) (cfg : InputsConfig) (s : State) :
    Moves s (acceptConfigureInputs c e cfg s) := by
  unfold acceptConfigureInputs
  split
  · exact (restartSlowClock_moves cfg s).trans ((setInputs_moves cfg _ _).trans (completePlain_seq ..).toMoves)
  · exact (completePlain_seq ..).toMoves

theorem acceptEnableAxis_seq (c : CtlRecord) (e : Fin 24) (a : Axis) (s : State) : Seq s (acceptEnableAxis c e a s) := by
  unfold acceptEnableAxis
  split
  · next h => exact (modAxis_seq (.enable h)).trans (completePlain_seq ..)
  · exact completePlain_seq ..

theorem disableNow_seq (c : CtlRecord) (e : Fin 24) (a : Axis) {s : State}
    (h : (s.axis a).st = .idle ∨ (s.axis a).st = .halted) : Seq s (disableNow c e a s) :=
  (modAxis_seq (.disable h)).trans ((Seq.modFetcher .setHead).trans (complete_seq ..))

theorem acceptDisableAxis_seq (c : CtlRecord) (e : Fin 24) (a : Axis) (s : State) :
    Seq s (acceptDisableAxis c e a s) := by
  unfold acceptDisableAxis
  split
  · next h => exact disableNow_seq c e a (.inl h)
  · next h =>
    split
    · exact disableNow_seq c e a (.inr h)
    · exact completePlain_seq ..
  · exact completePlain_seq ..

theorem acceptClearFault_seq (c : CtlRecord) (e : Fin 24) (a : Axis) (r l : Bool) (s : State) :
    Seq s (acceptClearFault c e a r l s) := by
  unfold acceptClearFault
  split
  · next h =>
    split
    · refine (modAxis_seq (.clear l h)).trans (Seq.trans ?_ (complete_seq ..))
      split
      · exact Seq.refl _
      · exact Seq.modFetcher .setHead
    · exact completePlain_seq ..
  · exact completePlain_seq ..

theorem pendStop_seq (a : Axis) (q : StopReq) (s : State) : Seq s (pendStop a q s) :=
  (modAxis_seq (f := fun x => { x with stopReq := some q }) (.stopReq _)).trans (Seq.setEntry ..)

theorem pendStop_ramp_seq (a : Axis) (q : StopReq) (d : Nat) {s : State} (h : (s.axis a).st.moving = true) :
    Seq s ((pendStop a q s).modAxis a (AxisBlock.enterRamp d)) :=
  (pendStop_seq a q s).trans (modAxis_seq (.enterRamp d (by simp [pendStop, h])))

theorem acceptStopAxis_seq (c : CtlRecord) (e : Fin 24) (a : Axis) (d : Option Nat) (s : State) :
    Seq s (acceptStopAxis c e a d s) := by
  unfold acceptStopAxis
  dsimp only
  split
  · exact completePlain_seq ..
  · exact completePlain_seq ..
  · next h => exact pendStop_ramp_seq a _ _ (by simp [h, AxisState.moving])
  · next h => exact pendStop_ramp_seq a _ _ (by simp [h, AxisState.moving])
  · next h1 h2 h3 h4 =>
    refine restInstant_seq' a _ ?_ h1 h2
    cases hst : (s.axis a).st <;> simp_all [AxisState.moving]

theorem acceptAbortAxis_seq (c : CtlRecord) (e : Fin 24) (a : Axis) (s : State) : Seq s (acceptAbortAxis c e a s) := by
  unfold acceptAbortAxis
  dsimp only
  split
  · exact completePlain_seq ..
  · exact completePlain_seq ..
  · next h1 h2 => exact restInstant_seq a _ _ .still h1 h2

theorem acceptDefineGroup_seq (c : CtlRecord) (e : Fin 24) (g : GroupIx) (m : AxisSet) (r : Bool) (t : Option Nat)
    (s : State) : Seq s (acceptDefineGroup c e g m r t s) := by
  unfold acceptDefineGroup
  dsimp only
  split
  · exact complete_seq ..
  · exact (Seq.modGroup (.single (.define m r t))).trans (complete_seq ..)

theorem acceptClearGroup_seq (c : CtlRecord) (e : Fin 24) (g : GroupIx) (s : State) :
    Seq s (acceptClearGroup c e g s) := by
  unfold acceptClearGroup
  dsimp only
  refine Seq.trans ?_ ((Seq.modGroup (.single .free)).trans (complete_seq ..))
  split
  · exact breakGroup_seq ..
  · exact Seq.refl s

theorem acceptCaptureArm_seq (c : CtlRecord) (e : Fin 24) (a : Axis) (src : Source) (n : Option Nat) (s : State) :
    Seq s (acceptCaptureArm c e a src n s) := by
  unfold acceptCaptureArm
  dsimp only
  split
  · exact complete_seq ..
  · exact (modAxis_seq (f := fun x =>
      { x with arm := { armed := true, source := src, remaining := n, tag := c.tag, missed := 0 } })
      (.arm _ (.inl rfl))).trans (complete_seq ..)

theorem acceptCaptureDisarm_seq (c : CtlRecord) (e : Fin 24) (a : Axis) (s : State) :
    Seq s (acceptCaptureDisarm c e a s) :=
  (modAxis_seq (f := fun x => { x with arm := { x.arm with armed := false, missed := 0 } })
    (.arm _ (.inl rfl))).trans (complete_seq ..)

theorem acceptReadStatus_seq (c : CtlRecord) (e : Fin 24) (a : Axis) (s : State) : Seq s (acceptReadStatus c e a s) :=
  fill_seq ..

theorem acceptInvalid_seq (c : CtlRecord) (e : Fin 24) (s : State) : Seq s (acceptInvalid c e s) := by
  unfold acceptInvalid; split <;> exact fill_seq ..

theorem accept_moves (c : CtlRecord) (e : Fin 24) (s : State) : Moves s (accept c e s) := by
  unfold accept
  split
  · exact (acceptConfigureAxis_seq ..).toMoves
  · exact acceptConfigureInputs_moves ..
  · exact (acceptEnableAxis_seq ..).toMoves
  · exact (acceptDisableAxis_seq ..).toMoves
  · exact (acceptStopAxis_seq ..).toMoves
  · exact (acceptAbortAxis_seq ..).toMoves
  · exact (acceptClearFault_seq ..).toMoves
  · exact (acceptDefineGroup_seq ..).toMoves
  · exact (acceptClearGroup_seq ..).toMoves
  · exact (acceptCaptureArm_seq ..).toMoves
  · exact (acceptCaptureDisarm_seq ..).toMoves
  · exact (acceptReadStatus_seq ..).toMoves
  · exact (completePlain_seq ..).toMoves
  · exact (acceptInvalid_seq ..).toMoves

/-! ### Delivery -/

theorem judgeRecord_moves (c : CtlRecord) (s : State) : Moves s (judgeRecord c s) := by
  unfold judgeRecord
  split
  · exact Moves.of_eq rfl rfl rfl
  · exact (accept_moves ..).pre rfl rfl rfl
  · exact (accept_moves ..).pre rfl rfl rfl

theorem lookAgain_moves (s : State) : Moves s (lookAgain s) := by
  unfold lookAgain
  split
  · exact Moves.refl s
  · split
    · exact (accept_moves ..).pre rfl rfl rfl
    · split
      · split
        · exact (judgeRecord_moves ..).pre rfl rfl rfl
        · exact Moves.of_eq rfl rfl rfl
      · exact judgeRecord_moves ..

theorem lookNow_moves (s : State) : Moves s (lookNow s) := by
  unfold lookNow
  split
  · exact Moves.refl s
  · exact (judgeRecord_moves ..).trans (offIfAtRest_seq _).toMoves

theorem settle_moves (s : State) : Moves s (settle s) :=
  (offIfAtRest_seq s).toMoves.trans ((lookAgain_moves _).trans (offIfAtRest_seq _).toMoves)

theorem deliverCommand_moves (tag : Word) (b : CtlBody) (s : State) : Moves s (deliverCommand tag b s) := by
  unfold deliverCommand
  split
  · exact (judgeRecord_moves ..).trans (settle_moves _)
  · exact Moves.refl s

/-- Outside QUIESCING and FAILED no axis goes to OFF at rest. -/
theorem offIfAtRest_of_ne {s : State} (h : s.dev ≠ .quiescing) (k : s.dev ≠ .failed) : offIfAtRest s = s := by
  simp [offIfAtRest, h, k]

/-- In a device that is ONLINE with no record in hand nothing further follows from a command. -/
theorem settle_of_online {s : State} (h : s.dev = .online) (k : s.interp = .waiting) : settle s = s := by
  have : offIfAtRest s = s := offIfAtRest_of_ne (by simp [h]) (by simp [h])
  simp [settle, this, lookAgain, k]

/-- A record delivered to an interpreter with none in hand, with a general entry to be had, is accepted with it. -/
theorem judgeRecord_takes {c : CtlRecord} {s : State} {e : Fin 24} (h : entryChoice c.body s = .takes e) :
    judgeRecord c s = accept c e ({ s with interp := .waiting }.setEntry e (.reserved .control)) := by
  unfold judgeRecord; rw [h]

/-- The events of one instant: none, or one, leave no order to choose. -/
@[simp] theorem inSomeOrder_nil {α : Type} (f : α → State → State) (s : State) : inSomeOrder [] f s = s := rfl

theorem inSomeOrder_one {α : Type} (x : α) (f : α → State → State) (s : State) :
    inSomeOrder [x] f s = f x { s with freeCount := s.freeCount + 1 } := rfl

end Sys2Proof.Machine
end

