-- ==== Sys2Proof/Laws/Expiry.lean ====
section
/-! SUPPORT. One lemma per operation of the work of an expiry. `Work` says what such an operation does: a chain of primitive changes,
and, where no control record is in hand, nothing to the rest of the state. -/

namespace Sys2Proof.Machine
open Sys2Proof

/-- What the work of an expiry does: a chain of primitive changes, and the rest of the state kept where no control record is in hand
(one that is may be accepted on the way, R154). -/
structure Work (s t : State) : Prop extends Moves s t where
  rest : s.interp = .waiting → SameRest s t

theorem Seq.toWork {s t : State} (h : Seq s t) : Work s t := ⟨h.toMoves, fun _ => h.rest⟩

theorem Work.refl (s : State) : Work s s := (Seq.refl s).toWork

theorem Work.trans {s t u : State} (h : Work s t) (k : Work t u) : Work s u :=
  ⟨h.toMoves.trans k.toMoves, fun w => (h.rest w).trans (k.rest (by rw [(h.rest w).interp, w]))⟩

/-- A chain of sequencer operations before the work. -/
theorem Seq.work {s t u : State} (h : Seq s t) (k : Work t u) : Work s u := h.toWork.trans k

/-! ### A record accepted on the way -/

/-- With no record in hand none is accepted. -/
@[simp] theorem acceptAtRelease_of_waiting (b : Option Axis) {s : State} (h : s.interp = .waiting) : acceptAtRelease b s = s := by
  simp [acceptAtRelease, h]

theorem acceptAtRelease_moves (b : Option Axis) (s : State) : Moves s (acceptAtRelease b s) := by
  unfold acceptAtRelease
  split
  · split
    · exact Moves.refl s
    · exact (accept_moves ..).pre rfl rfl rfl
  · exact Moves.refl s

theorem acceptAtRelease_work (b : Option Axis) (s : State) : Work s (acceptAtRelease b s) :=
  ⟨acceptAtRelease_moves b s, fun h => by rw [acceptAtRelease_of_waiting b h]; exact SameRest.refl s⟩

/-- A record retires OK, and the axis goes on where it is in the state it was in. -/
theorem retireThen_work (a : Axis) (w : Segment → Word × Word) {next : State → State} {s : State}
    (h : ∀ u, (u.axis a).st = (s.axis a).st → Work u (next u)) : Work s (retireThen a w next s) := by
  have k : Work s (acceptAtRelease (some a) (retireActive a .ok none w s)) :=
    (retireActive_seq ..).work (acceptAtRelease_work ..)
  unfold retireThen
  dsimp only
  split
  · next hs => exact k.trans (h _ hs)
  · exact k

/-- With no record in hand a record that retires OK is followed by what the axis goes on with. -/
theorem retireThen_of_waiting (a : Axis) (w : Segment → Word × Word) (next : State → State) {s : State} (h : s.interp = .waiting) :
    retireThen a w next s = next (retireActive a .ok none w s) := by
  have k : (retireActive a .ok none w s).interp = .waiting := by rw [(retireActive_seq a .ok none w s).rest.interp, h]
  simp [retireThen, k]

/-! ### Consideration of the staging queue -/

theorem activate_seq (a : Axis) (r : AxisRecord) (e : Fin 24) (s : State) : Seq s (activate a r e s) :=
  modAxis_seq (.activate _)

@[simp] theorem activate_axis_st (a : Axis) (r : AxisRecord) (e : Fin 24) (s : State) (b : Axis) :
    ((activate a r e s).axis b).st = (s.axis b).st := by
  rw [activate, State.modAxis_axis]; split
  · next e => rw [e]
  · rfl
@[simp] theorem activate_axis_cfg (a : Axis) (r : AxisRecord) (e : Fin 24) (s : State) (b : Axis) :
    ((activate a r e s).axis b).cfg = (s.axis b).cfg := by
  rw [activate, State.modAxis_axis]; split
  · next e => rw [e]
  · rfl

theorem completeWait_idle (a : Axis) (w : Wait) (s : State) : ((completeWait a w s).axis a).st = .idle := by
  simp [completeWait]

/-- An activated record whose front check has passed. -/
theorem runActivated_seq (a : Axis) (r : AxisRecord) {s : State} (h : (s.axis a).st = .idle)
    (hr : rateOk (s.axis a).cfg r.body) : Seq s (runActivated a r s).1 := by
  unfold runActivated
  unfold rateOk frontInvalid at hr
  split
  · next m hm => exact startMove_seq a m h (by simpa [hm] using hr)
  · exact modAxis_seq (f := fun x => { x with st := .dwell }) (.dwell h)
  · split
    · exact completeWait_seq a _ (by simp [h, AxisState.moving]) (by simp [h]) (by simp [h]) (by simp [h])
    · next w _ _ =>
      dsimp only
      refine Seq.modAxis ?_
      by_cases hf : w.policy = .fresh
      · simp only [if_pos hf]
        exact .tail (.single (.clearLatch w.src)) (.waitEvent h)
      · simp only [if_neg hf]
        exact .single (.waitEvent h)
  · exact (modAxis_seq (.applySetpos _ _)).trans (retireActive_seq ..)
  · exact retireActive_seq ..
  · exact Seq.refl s

/-- A record completed at its activation leaves its axis IDLE. -/
theorem runActivated_idle (a : Axis) (r : AxisRecord) {s : State} (h : (s.axis a).st = .idle)
    (hd : (runActivated a r s).2 = true) : ((runActivated a r s).1.axis a).st = .idle := by
  unfold runActivated at hd ⊢
  split
  · simp_all
  · simp_all
  · split
    · exact completeWait_idle ..
    · simp_all
  · simp [AxisBlock.applySetpos_st, h]
  · simp [h]
  · simp_all

theorem considerQueue_work (a : Axis) (n : Nat) (s : State) : Work s (considerQueue a n s) := by
  induction n generalizing s with
  | zero => exact Work.refl s
  | succ n ih =>
    unfold considerQueue
    split
    · next hd =>
      simp only [Bool.and_eq_true, decide_eq_true_eq] at hd
      have h := hd.2
      split
      · exact Work.refl s
      · next r _ _ =>
        split
        · exact (haltAxis_seq a _ _ (by simp [h])).toWork
        · next hr =>
          have hr' : rateOk (s.axis a).cfg r.body := by simpa [rateOk] using hr
          split
          · exact (judgeTagged_seq a _ r h hr').toWork
          · split
            · exact Work.refl s
            · next e t k =>
              have ht := (takeGeneral_eq k).1
              have hi : ((activate a r e t).axis a).st = .idle := by simp [ht, h]
              have hc : rateOk ((activate a r e t).axis a).cfg r.body := by simpa [ht] using hr'
              have hp := ((takeGeneral_seq k).trans (activate_seq a r e t)).trans (runActivated_seq a r hi hc)
              dsimp only
              split
              · exact hp.work ((acceptAtRelease_work ..).trans (ih _))
              · exact hp.toWork
    · exact Work.refl s

/-- An axis at rest becomes IDLE, as it stands or at the end of a MOVE, and considers its queue. -/
theorem becomeIdle_work (a : Axis) {s : State} (f : AxisBlock → AxisBlock) (h : Stopped (s.axis a) (f (s.axis a)))
    (ho : (s.axis a).st ≠ .off) (hh : (s.axis a).st ≠ .halted) (hs : (s.axis a).st ≠ .waitSync)
    (hf : (f (s.axis a)).held = (s.axis a).held) : Work s (becomeIdle a (s.modAxis a f)) := by
  unfold becomeIdle
  refine Seq.work (Seq.of_axis a { (f (s.axis a)) with st := .idle } (fun b => ?_) ?_ (fun g => ?_) ?_
    (SameRest.rings_of (t := (s.modAxis a f).modAxis a fun x => { x with st := .idle }) rfl (by simp))) (considerQueue_work a _ _)
  · by_cases e : b = a
    · subst e; simp
    · simp [State.modAxis_axis, e]
  · exact .single (.idle (f (s.axis a)) (f (s.axis a)).staging (f (s.axis a)).active (f (s.axis a)).held
      (f (s.axis a)).stopReq (f (s.axis a)).lastRetired h ho hh (.inr ⟨hf, hs⟩))
  · simp
  · rfl

theorem becomeIdle_work' (a : Axis) {s : State} (h : (s.axis a).st = .dwell ∨ (s.axis a).st = .waitEvent) :
    Work s (becomeIdle a s) := by
  have := becomeIdle_work a (s := s) (fun x => x) (.resting (by rcases h with h | h <;> simp [h, AxisState.moving]))
    (by rcases h with h | h <;> simp [h]) (by rcases h with h | h <;> simp [h]) (by rcases h with h | h <;> simp [h]) rfl
  rwa [State.modAxis_id] at this

/-! ### The end of a MOVE -/

theorem passMarks_seq (a : Axis) (n : Nat) (s : State) : Seq s (passMarks a n s).1 := by
  induction n generalizing s with
  | zero => exact Seq.refl s
  | succ n ih =>
    unfold passMarks
    split
    · exact Seq.refl s
    · split
      · split
        · exact Seq.refl s
        · next e t k =>
          exact ((takeGeneral_seq k).trans ((activate_seq ..).trans (retireActive_seq ..))).trans (ih _)
      · exact Seq.refl s

/-- The MARKs passed at a join leave the axis in the state it was in. -/
@[simp] theorem passMarks_axis_st (a : Axis) (n : Nat) (s : State) (b : Axis) :
    ((passMarks a n s).1.axis b).st = (s.axis b).st := by
  induction n generalizing s with
  | zero => rfl
  | succ n ih =>
    unfold passMarks
    split
    · rfl
    · split
      · split
        · rfl
        · next e t k => simp [ih, (takeGeneral_eq k).1]
      · rfl

theorem judgeJoin_seq (a : Axis) (id : RecId) {s : State} (h : (s.axis a).st = .run) :
    Seq s (judgeJoin a id s) := by
  have ho : (s.axis a).st ≠ .off := by simp [h]
  unfold judgeJoin
  split
  · exact haltAxis_seq a _ _ ho
  · next r _ _ =>
    split
    · exact haltAxis_seq a _ _ ho
    · next hr =>
      split
      · exact haltAxis_seq a _ _ ho
      · split
        · next m hm =>
          split
          · exact haltAxis_seq a _ _ ho
          · next e t k =>
            split
            · exact haltAxis_seq a _ _ ho
            · refine ((takeGeneral_seq k).trans (activate_seq ..)).trans (modAxis_seq (.joinRun m ?_ ?_))
              · simp [(takeGeneral_eq k).1, h]
              · simpa [(takeGeneral_eq k).1, frontInvalid, hm] using hr
        · exact haltAxis_seq a _ _ ho

theorem continueJoin_seq (a : Axis) (id : RecId) {s : State} (h : (s.axis a).st = .run) : Seq s (continueJoin a id s) := by
  have hp := passMarks_seq a (s.axis a).staging.length s
  unfold continueJoin
  dsimp only
  split
  · exact hp.trans (haltAxis_seq a _ _ (by simp [h]))
  · exact hp.trans (judgeJoin_seq a id (by simp [h]))

theorem restExit_work (a : Axis) (id : RecId) {s : State} (h : (s.axis a).st = .run) : Work s (restExit a id s) := by
  unfold restExit
  dsimp only
  split
  · refine Seq.toWork ?_
    unfold haltAxis
    refine Seq.trans ?_ (depart_seq ..)
    refine Seq.of_axis a ((s.axis a).haltedBy .rateJump) (fun b => ?_)
      (.single (AxisBlock.haltedBy_step _ (.inl (by simp [h])))) (fun g => by simp)
      (SameRest.trans (t := s.modAxis a fun x => { x with rate := 0, frac := 0, periodSteps := 0 }) rfl (haltCore_rest ..))
      (haltCore_rings a .rateJump id (s.modAxis a fun x => { x with rate := 0, frac := 0, periodSteps := 0 }))
    by_cases e : b = a
    · subst e
      rw [haltCore_axis, if_pos rfl, State.modAxis_axis_same, if_pos rfl, AxisBlock.haltedBy, AxisBlock.haltedBy]
      generalize s.axis b = y
      cases ha : y.active <;> cases hh : y.held <;>
        simp [AxisBlock.still, AxisBlock.retired, AxisBlock.heldRetired, AxisBlock.outsideWindow, ha, hh]
    · simp [haltCore_axis, State.modAxis_axis, e]
  · exact becomeIdle_work a _ (.ended h) (by simp [h]) (by simp [h]) (by simp [h]) rfl

theorem endMove_work (a : Axis) (g : Segment) (m : Move) {s : State} (h : (s.axis a).st = .run) :
    Work s (endMove a g m s) := by
  unfold endMove
  dsimp only
  split
  · exact retireThen_work a _ fun _ hu => restExit_work a _ (hu.trans h)
  · exact (retireActive_seq ..).work ((continueJoin_seq a _ (by simp [h])).work (acceptAtRelease_work ..))

/-- With no record in hand a MOVE that ends in RUN retires OK, and its exit follows. -/
theorem endMove_of_waiting (a : Axis) (g : Segment) (m : Move) {s : State} (h : s.interp = .waiting) (hr : (s.axis a).st = .run) :
    endMove a g m s =
      let s1 := retireActive a .ok none (fun _ => (BitVec.ofNat 32 m.steps, 0)) s
      match m.exit with
      | .rest => restExit a g.record.id s1
      | .continue => continueJoin a g.record.id s1 := by
  unfold endMove
  dsimp only
  cases m.exit with
  | rest => exact retireThen_of_waiting _ _ _ h
  | _ =>
    refine acceptAtRelease_of_waiting _ ?_
    rw [(continueJoin_seq a _ (by simp [hr])).rest.interp, (retireActive_seq ..).rest.interp, h]

theorem runWork_work (a : Axis) {s : State} (h : (s.axis a).st = .run) : Work s (runWork a s) := by
  unfold runWork
  split
  · exact Work.refl s
  · split
    · split
      · exact endMove_work a _ _ h
      · exact (modAxis_seq (.openPeriod _ h)).toWork
    · exact Work.refl s

theorem rampWork_seq (a : Axis) {s : State} (h : (s.axis a).st = .rampDown) : Seq s (rampWork a s) := by
  unfold rampWork
  dsimp only
  split
  · next hz =>
    rw [State.modAxis_axis_same] at hz
    have hs : Stopped (s.axis a) (s.axis a).rampPeriod := .ramped h hz
    unfold rampRest
    split
    · refine Seq.of_axis a { (s.axis a).rampPeriod with st := .idle, active := none } (fun b => ?_)
        (.single (.idle _ _ none _ _ _ hs (by simp [h]) (by simp [h]) (.inr ⟨?_, by simp [h]⟩))) (fun g => by simp) rfl .refl
      · by_cases e : b = a
        · subst e; simp
        · simp [State.modAxis_axis, e]
      · unfold AxisBlock.rampPeriod AxisBlock.handOver; dsimp only; split <;> rfl
    · split
      · exact restInstant_seq a _ _ hs (by simp [h]) (by simp [h])
      · exact retireCurrent_idle_seq a _ _ _ hs (by simp [h]) (by simp [h])
  · exact modAxis_seq (.rampPeriod h)

@[simp] theorem AxisBlock.countExpiry_st (x : AxisBlock) : x.countExpiry.st = x.st := rfl

theorem dwellWork_work (a : Axis) {s : State} (h : (s.axis a).st = .dwell) : Work s (dwellWork a s) := by
  have hs : Seq s (s.modAxis a AxisBlock.countExpiry) := modAxis_seq .countExpiry
  unfold dwellWork
  dsimp only
  split
  · split
    · exact hs.work (retireThen_work a _ fun u hu => becomeIdle_work' a (.inl (by rw [hu]; simp [h])))
    · exact hs.toWork
  · exact hs.toWork

theorem waitWork_work (a : Axis) {s : State} (h : (s.axis a).st = .waitEvent) : Work s (waitWork a s) := by
  have hs : Seq s (s.modAxis a AxisBlock.countExpiry) := modAxis_seq .countExpiry
  unfold waitWork
  dsimp only
  split
  · split
    · exact hs.work ((retireActive_seq ..).work (becomeIdle_work' a (.inr (by simp [h]))))
    · exact hs.toWork
  · exact hs.toWork

end Sys2Proof.Machine
end

