-- ==== Sys2Proof/Laws/Commands.lean ====
section
/-! SUPPORT. What every command does to the axes and groups, said once: `exec_moves`, and `step_moves` for a step. -/

namespace Sys2Proof.Machine
open Sys2Proof

/-! ### Device State Control -/

theorem resetBlocks_axis (c : ResetCause) (s : State) (a : Axis) :
    (resetBlocks c s).axis a = (s.axis a).afterReset := by simp [resetBlocks, State.axis]

theorem resetBlocks_group (c : ResetCause) (s : State) (g : GroupIx) : (resetBlocks c s).group g = Group.reset := by
  simp [resetBlocks, State.group, State.reset]

theorem resetBlocks_moves (c : ResetCause) (s : State) : Moves s (resetBlocks c s) := by
  refine ⟨?_, ?_, .single .reset⟩
  · intro a; rw [resetBlocks_axis]; exact .single .reset
  · intro g; rw [resetBlocks_group]; exact .single .free

theorem softResetNow_moves (s : State) : Moves s (softResetNow s) := (resetBlocks_moves .soft s).post rfl rfl rfl

theorem goNow_moves (s : State) : Moves s (goNow s) := by
  unfold goNow
  split
  · dsimp only; split <;> exact Moves.of_eq rfl rfl rfl
  · exact Moves.refl s

theorem judgeBlock_moves (l : List Block32) (s : State) : Moves s (judgeBlock l s) := by
  unfold judgeBlock
  split
  · next h => exact Moves.of_rings rfl rfl (.single (.online l h))
  · exact Moves.of_eq rfl rfl rfl

theorem quiesceAxis_seq (a : Axis) (s : State) : Seq s (quiesceAxis a s) := by
  unfold quiesceAxis
  split
  · next h =>
    refine Seq.trans ?_ (depart_seq ..)
    have := retireCurrent_idle_seq a .stopped none (s := s) (fun x => x)
      (.resting (by cases hst : (s.axis a).st <;> simp_all [AxisState.waiting, AxisState.moving]))
      (by intro k; simp [k, AxisState.waiting] at h) (by intro k; simp [k, AxisState.waiting] at h)
    rwa [State.modAxis_id] at this
  · exact Seq.refl s

theorem haltNow_moves (s : State) : Moves s (haltNow s) := by
  unfold haltNow
  split
  · dsimp only
    refine Moves.trans ?_ (settle_moves _)
    refine Moves.trans ?_ (Seq.inSomeOrder quiesceAxis_seq _ _).toMoves
    refine Moves.pre (Moves.mapAxes fun a => ?_) rfl rfl rfl
    split
    · next h =>
      exact .single (.enterRamp _ (by
        have : (s.axis a).st = .run := h
        simp [AxisState.moving, State.axis] at this ⊢; rw [this]))
    · exact .refl
  · exact Moves.refl s

theorem quiesceEndNow_moves (s : State) : Moves s (quiesceEndNow s) := by
  unfold quiesceEndNow
  split
  · refine ⟨?_, ?_, .refl⟩
    · intro a
      have : State.axis { s with
          dev := .offline, groups := Vector.replicate 8 Group.reset
          axes := mapEach (fun x => { x with latches := Vector.replicate 6 Latch.clear }) s.axes } a
          = { s.axis a with latches := Vector.replicate 6 Latch.clear } := by simp [State.axis]
      rw [this]; exact .single .clearLatches
    · intro g
      have : State.group { s with
          dev := .offline, groups := Vector.replicate 8 Group.reset
          axes := mapEach (fun x => { x with latches := Vector.replicate 6 Latch.clear }) s.axes } g
          = Group.reset := by simp [State.group]
      rw [this]; exact .single .free
  · exact Moves.refl s

theorem AxisBlock.failing_run (x : AxisBlock) : AxisRun x x.failing := by
  have h : AxisRun x (if x.st.moving then x.enterRamp x.cfg.stopDecel else x) := by
    split
    · next h => exact .single (.enterRamp _ h)
    · exact .refl
  unfold AxisBlock.failing
  generalize (if x.st.moving then x.enterRamp x.cfg.stopDecel else x) = y at h ⊢
  exact (h.tail (.stopReq none)).tail
    (.arm (x := { y with stopReq := none }) { y.arm with armed := false } (.inr (.inl rfl)))

/-- Cancelling every fetch is a chain of cancellations. -/
theorem mapEach_cancel_rings (v : Vector Fetcher 5) (w : Writer) (p : Option PortUse) :
    RingRun { fetchers := v, writer := w, port := p } { fetchers := mapEach Fetcher.cancel v, writer := w, port := p } := by
  have step (v : Vector Fetcher 5) (r : Fin 5) :
      RingRun { fetchers := v, writer := w, port := p } { fetchers := v.set r v[r].cancel, writer := w, port := p } :=
    .single (.fetcher r _ .cancel)
  have h := ((((step v 0).trans (step _ 1)).trans (step _ 2)).trans (step _ 3)).trans (step _ 4)
  refine Eq.mp (congrArg (fun u => RingRun { fetchers := v, writer := w, port := p }
    { fetchers := u, writer := w, port := p }) ?_) h
  ext i hi
  · have : i = 0 ∨ i = 1 ∨ i = 2 ∨ i = 3 ∨ i = 4 := by omega
    rcases this with rfl | rfl | rfl | rfl | rfl <;> simp [mapEach]

theorem deviceFail_moves (f : Failure) (s : State) : Moves s (deviceFail f s) := by
  unfold deviceFail
  split
  · refine Moves.trans ?_ (offIfAtRest_seq _).toMoves
    refine ⟨?_, ?_, mapEach_cancel_rings s.fetchers s.writer s.port⟩
    · intro a
      refine Eq.mp (congrArg (AxisRun (s.axis a)) ?_) (s.axis a).failing_run
      simp [State.axis, discardBuffer]
    · intro g
      refine Eq.mp (congrArg (GroupRun (s.group g)) ?_) (.single .free)
      simp [State.group]
  · exact Moves.refl s

/-! ### Registers -/

theorem tailpostNow_moves (r : BitVec 3) (t : BitVec 16) (s : State) : Moves s (tailpostNow r t s) := by
  unfold tailpostNow
  split
  · split
    · next h =>
      simp only [Bool.and_eq_true, decide_eq_true_eq] at h
      exact Moves.modFetcher (f := fun f => { f with tail := t.toNat }) (.post _ h.2)
    · exact Moves.of_eq rfl rfl rfl
  · exact Moves.of_eq rfl rfl rfl

theorem cheadNow_moves (h : BitVec 16) (s : State) : Moves s (cheadNow h s) := by
  unfold cheadNow
  split
  · next k =>
    simp only [cheadOk, Bool.and_eq_true, decide_eq_true_eq] at k
    exact Moves.of_rings rfl rfl (.single (.release _ k.2.1))
  · exact Moves.of_eq rfl rfl rfl

theorem ctlNow_moves (g h r : Bool) (s : State) : Moves s (ctlNow g h r s) := by
  unfold ctlNow
  split
  · exact softResetNow_moves s
  · split
    · exact goNow_moves s
    · split
      · exact haltNow_moves s
      · exact Moves.refl s

theorem writeReg_moves (r : HostReg) (v : Word) (s : State) : Moves s (writeReg r v s) := by
  unfold writeReg
  split
  · exact ctlNow_moves ..
  · exact Moves.of_eq rfl rfl rfl
  · exact Moves.of_eq rfl rfl rfl
  · exact Moves.of_eq rfl rfl rfl
  · exact tailpostNow_moves ..
  · exact cheadNow_moves ..
  · exact Moves.of_eq rfl rfl rfl
  · exact Moves.of_eq rfl rfl rfl

theorem holdoffNow_moves (s : State) : Moves s (holdoffNow s) := by
  unfold holdoffNow; split <;> exact Moves.of_eq rfl rfl rfl

theorem countWrite_moves (s : State) : Moves s (countWrite s) := by
  unfold countWrite
  dsimp only
  split
  · exact Moves.of_eq rfl rfl rfl
  · split
    · exact Moves.of_eq rfl rfl rfl
    · split <;> exact Moves.of_eq rfl rfl rfl

/-! ### The port -/

theorem grantWriter_moves {s : State} (h : writerRequests s = true) : Moves s (grantWriter s) := by
  have hs : 0 < s.writer.size := by
    unfold writerRequests at h
    simp only [Bool.and_eq_true, decide_eq_true_eq] at h
    omega
  unfold grantWriter
  split
  · exact Moves.refl s
  · split
    · exact Moves.of_rings rfl rfl (.tail (.single (.flight _)) (.port _ fun _ _ _ _ => hs))
    · exact Moves.refl s

theorem grantFetcher_moves (r : Fin 5) (s : State) : Moves s (grantFetcher r s) := by
  unfold grantFetcher
  dsimp only
  split
  · exact Moves.of_rings rfl rfl (.tail (.single (.fetcher r _ .mark)) (.port _ (by simp)))
  · exact Moves.of_rings rfl rfl (.tail (.single (.fetcher r _ (.flight _))) (.port _ (by simp)))

theorem grantSetup_moves (p : SetupRead) (s : State) : Moves s (grantSetup p s) :=
  Moves.of_rings rfl rfl (.single (.port (some (.setupRead p.next (s.setupAddr + BitVec.ofNat 64 (32 * p.next.val))))
    (by simp)))

theorem portGrantNow_moves (s : State) : Moves s (portGrantNow s) := by
  unfold portGrantNow
  split
  · exact Moves.refl s
  · split
    · split
      · next p _ => exact grantSetup_moves p s
      · exact Moves.refl s
    · split
      · next h => exact grantWriter_moves h
      · split
        · exact grantFetcher_moves ..
        · exact Moves.refl s

/-- The port becomes free. -/
theorem freePort_moves (s : State) : Moves s { s with port := none } :=
  Moves.of_rings rfl rfl (.single (.port _ (by simp)))

theorem setupReadEnd_moves (k : Fin 4) (r : ReadEnd) (s : State) : Moves s (setupReadEnd k r s) := by
  unfold setupReadEnd
  dsimp only
  split
  · exact (freePort_moves s).trans (Moves.of_eq rfl rfl rfl)
  · split
    · exact (freePort_moves s).trans (judgeBlock_moves ..)
    · exact (freePort_moves s).trans (Moves.of_eq rfl rfl rfl)

theorem stage_moves (a : Axis) (d : Block32) (s : State) : Moves s (stage a d s) :=
  Moves.modAxis (f := fun x => { x with staging := x.staging ++ [readAxisRecord d] }) (.single (.stage _))

theorem takeRecord_moves (r : Fin 5) (d : Block32) {s : State} (h : (s.fetcher r).head ≠ (s.fetcher r).tail) :
    Moves s (takeRecord r d s) := by
  have k : Moves s { s.modFetcher r (fun f => { f with head := ringNext (s.fetcher r).head (s.fetcher r).size }) with
      port := some (.fetchMirror r (mirrorAddr s.setupAddr r) (mirrorWord (ringNext (s.fetcher r).head (s.fetcher r).size))) } :=
    Moves.of_rings rfl rfl (.tail (.single (.fetcher r _ (.take h))) (.port _ (by simp)))
  unfold takeRecord deliverRecord
  dsimp only
  split
  · exact k.trans (judgeRecord_moves ..)
  · exact k.trans (stage_moves ..)

theorem readFailed_moves (r : Fin 5) (s : State) : Moves s (readFailed r s) := by
  unfold readFailed
  split
  · exact deviceFail_moves ..
  · dsimp only
    split
    · exact Moves.refl s
    · next h =>
      simp only [Bool.or_eq_true, decide_eq_true_eq, not_or] at h
      exact (haltCurrent_seq _ _ h.1).toMoves

theorem endFetch_moves (r : Fin 5) (s : State) : Moves s (endFetch r s) :=
  Moves.of_rings rfl rfl (.tail (.single (.fetcher r _ (.flight none))) (.port none (by simp)))

theorem fetchReadEnd_moves (r : Fin 5) (d : ReadEnd) (s : State) : Moves s (fetchReadEnd r d s) := by
  have he := endFetch_moves r s
  unfold fetchReadEnd
  dsimp only
  split
  · exact he
  · split
    · exact he.trans ((readFailed_moves ..).trans (settle_moves _))
    · split
      · next h =>
        simp only [takes, Bool.and_eq_true, bne_iff_ne] at h
        exact (takeRecord_moves _ _ h.1.2).trans (settle_moves _)
      · exact he

theorem mirrorEnd_moves (r : Fin 5) (b : Bool) (s : State) : Moves s (mirrorEnd r b s) := by
  unfold mirrorEnd
  split
  · exact deviceFail_moves ..
  · exact Moves.refl s

theorem reportEnd_moves (e : Fin 24) (b : Bool) {s : State} {a : Addr} {v : Block32}
    (h : s.port = some (.report e a v)) : Moves s (reportEnd e b s) := by
  have hw : Moves s { s with port := none, writer := { s.writer with inFlight := none } } :=
    Moves.of_rings rfl rfl (.tail (.single (.port none (by simp))) (.flight none))
  unfold reportEnd
  dsimp only
  split
  · exact hw
  · split
    · exact hw.trans (deviceFail_moves ..)
    · refine Moves.trans ?_ (settle_moves _)
      unfold reportWritten
      dsimp only
      refine Moves.trans ?_ (countWrite_moves _)
      exact Moves.of_rings rfl rfl (.single (.written e a v h))

/-! ### Inputs -/

theorem limitAct_moves (a : Axis) (d : Side) (h : Bool) (s : State) : Moves s (limitAct a d h s) := by
  unfold limitAct
  split
  · next hl =>
    have hm : (s.axis a).st.moving = true := by
      unfold limitStops at hl; simp only [Bool.and_eq_true] at hl; exact hl.1.2
    split
    · refine Moves.modAxis (.single ?_)
      exact .idle (s.axis a).still (s.axis a).staging none (s.axis a).held (s.axis a).stopReq (s.axis a).lastRetired
        .still (by intro k; simp [k, AxisState.moving] at hm) (by intro k; simp [k, AxisState.moving] at hm)
        (.inr ⟨rfl, by intro k; simp [k, AxisState.moving] at hm⟩)
    · exact (haltCurrent_seq _ _ (by intro k; simp [k, AxisState.moving] at hm)).toMoves
  · exact Moves.refl s

theorem setLevel_moves (l : Line) (h : Bool) (s : State) : Moves s (setLevel l h s) := Moves.of_eq rfl rfl rfl

theorem encoderAct_moves (a : Axis) (s : State) : Moves s (encoderAct a s) :=
  Moves.modAxis (.single (.countQuad _ _))

theorem quadErrorAct_moves (a : Axis) (s : State) : Moves s (quadErrorAct a s) := by
  have h : Moves s (s.modAxis a fun x =>
      { x with quadErrs := satInc x.quadErrs, quadA := (quadLevels s a).1, quadB := (quadLevels s a).2 }) :=
    Moves.modAxis (f := fun x =>
      { x with quadErrs := satInc x.quadErrs, quadA := (quadLevels s a).1, quadB := (quadLevels s a).2 })
      (.single (.quadState _ _ _ (.inr rfl)))
  unfold quadErrorAct
  dsimp only
  split
  · next hc =>
    refine h.trans (haltCurrent_seq a _ ?_).toMoves
    simp only [Bool.and_eq_true, bne_iff_ne] at hc
    exact hc.1.1.2
  · exact h

theorem latchEvent_moves (p : Axis × Source) (s : State) : Moves s (latchEvent p s) :=
  Moves.modAxis (f := fun x => x.setLatch p.2 ((x.latch p.2).take s.time)) (.single (.takeLatch _ _))

theorem Moves.foldl {α : Type} {f : α → State → State} (h : ∀ x s, Moves s (f x s)) (l : List α) (s : State) :
    Moves s (l.foldl (fun t x => f x t) s) := by
  induction l generalizing s with
  | nil => exact Moves.refl s
  | cons x l ih => exact (h x s).trans (ih _)

theorem Moves.inSomeOrder {α : Type} {f : α → State → State} (h : ∀ x s, Moves s (f x s)) (l : List α) (s : State) :
    Moves s (inSomeOrder l f s) :=
  (Moves.foldl h _ _).pre rfl rfl rfl

theorem AxisBlock.waitingOn_st {x : AxisBlock} {w : Wait} (h : x.waitingOn = some w) : x.st = .waitEvent := by
  unfold AxisBlock.waitingOn at h; split at h <;> simp_all

theorem captureEvent_moves (a : Axis) (s : State) : Moves s (captureEvent a s) := by
  unfold captureEvent
  dsimp only
  split
  · exact Moves.modAxis (f := fun x => { x with arm := { x.arm with missed := satInc x.arm.missed } })
      (.single (.arm _ (.inr (.inr rfl))))
  · refine (fill_seq ..).toMoves.trans (Moves.modAxis (f := fun x => { x with arm := x.arm.captured })
      (.single (.arm _ (.inl ?_))))
    unfold CaptureArm.captured; split <;> rfl

theorem acceptInEvent_moves (s : State) : Moves s (acceptInEvent s) := by
  unfold acceptInEvent
  split
  · exact Moves.refl s
  · exact acceptAtRelease_moves ..

theorem reachLatches_moves (l : EventLine) (a : Axis) (s : State) : Moves s (reachLatches l a s) :=
  Moves.foldl (f := fun src t => latchEvent (a, src) t) (fun src t => latchEvent_moves (a, src) t) _ _

theorem runTaker_moves (l : EventLine) (t : EventTaker) (s : State) : Moves s (runTaker l t s) := by
  unfold runTaker
  split
  · exact reachLatches_moves ..
  · split
    · next h =>
      have hst := AxisBlock.waitingOn_st h
      exact (completeWait_seq _ _ (by simp [hst, AxisState.moving]) (by simp [hst]) (by simp [hst])
        (by simp [hst])).toMoves.trans (acceptInEvent_moves _)
    · exact Moves.refl s
  · split
    · exact captureEvent_moves ..
    · exact Moves.refl s

theorem eventAct_moves (l : EventLine) (s : State) : Moves s (eventAct l s) :=
  (Moves.foldl (f := reachLatches l) (reachLatches_moves l) _ _).trans
    ((Moves.inSomeOrder (runTaker_moves l) _ _).trans (acceptAtRelease_moves ..))

/-! ### An event with no record in hand -/

@[simp] theorem reachLatches_interp (l : EventLine) (a : Axis) (s : State) : (reachLatches l a s).interp = s.interp := by
  unfold reachLatches
  generalize fedSources l a (s.axis a).cfg = srcs
  induction srcs generalizing s with
  | nil => rfl
  | cons p ps ih => rw [List.foldl_cons, ih]; simp [latchEvent]

@[simp] theorem captureEvent_interp (a : Axis) (s : State) : (captureEvent a s).interp = s.interp := by
  unfold captureEvent
  dsimp only
  split
  · simp
  · simp [(fill_seq ..).rest.interp]

/-- A taker of an event leaves the interpreter with no record in hand. -/
theorem runTaker_interp (l : EventLine) (t : EventTaker) {s : State} (h : s.interp = .waiting) :
    (runTaker l t s).interp = .waiting := by
  unfold runTaker
  split
  · simp [h]
  · next a w =>
    split
    · next hw =>
      have hst := AxisBlock.waitingOn_st hw
      have k : (completeWait a w s).interp = .waiting := by
        rw [(completeWait_seq _ _ (by simp [hst, AxisState.moving]) (by simp [hst]) (by simp [hst]) (by simp [hst])).rest.interp, h]
      simp [acceptInEvent, Interp.readsStatus, k]
    · exact h
  · split
    · simp [h]
    · exact h

/-- With no record in hand none changes the latches of an axis at this instant. -/
@[simp] theorem State.mayChangeLatches_of_waiting {s : State} (h : s.interp = .waiting) (a : Axis) :
    s.mayChangeLatches a = false := by
  simp [State.mayChangeLatches, h]

/-- With no record in hand every latch the event's line feeds takes it first; the WAITs and captures follow (R95, R118). -/
theorem eventAct_of_waiting (l : EventLine) {s : State} (h : s.interp = .waiting) :
    eventAct l s = inSomeOrder (allAxes.flatMap fun a => waitTaker l s a ++ captureTaker l s a) (runTaker l)
      (allAxes.foldl (fun t a => reachLatches l a t) s) := by
  have k : axisTakers l s = fun a => waitTaker l s a ++ captureTaker l s a := by
    funext a; simp [axisTakers, State.mayChangeLatches_of_waiting h]
  have kept : ∀ (as : List Axis) (u : State), u.interp = .waiting →
      (as.foldl (fun t a => reachLatches l a t) u).interp = .waiting := by
    intro as
    induction as with
    | nil => exact fun _ hu => hu
    | cons a as ih => exact fun u hu => ih _ (by simp [hu])
  have taken : ∀ (ts : List EventTaker) (u : State), u.interp = .waiting →
      (ts.foldl (fun t x => runTaker l x t) u).interp = .waiting := by
    intro ts
    induction ts with
    | nil => exact fun _ hu => hu
    | cons x ts ih => exact fun u hu => ih _ (runTaker_interp l x hu)
  unfold eventAct
  simp only [k, State.mayChangeLatches_of_waiting h, Bool.not_false, List.filter_true]
  exact acceptAtRelease_of_waiting _ (taken _ _ (kept allAxes s h))

theorem runDelivery_moves (d : Delivery) (s : State) : Moves s (runDelivery d s) := by
  unfold runDelivery
  split
  · exact (setLevel_moves ..).trans (limitAct_moves ..)
  · exact (setLevel_moves ..).trans (encoderAct_moves ..)
  · exact (setLevel_moves ..).trans ((setLevel_moves ..).trans (quadErrorAct_moves ..))
  · dsimp only
    split
    · exact (setLevel_moves ..).trans (eventAct_moves ..)
    · exact setLevel_moves ..

theorem deliverEdge_moves (d : Delivery) (s : State) : Moves s (deliverEdge d s) := by
  unfold deliverEdge
  dsimp only
  have h : Moves s { runDelivery d s with freeCount := (runDelivery d s).freeCount + 1 } :=
    (runDelivery_moves d s).post rfl rfl rfl
  split
  · exact h.trans (settle_moves _)
  · exact h

/-- In a device that is ONLINE with no record in hand nothing further follows from one edge of a sample. -/
theorem deliverEdge_of_online (d : Delivery) {s : State} (h : (runDelivery d s).dev = .online)
    (k : (runDelivery d s).interp = .waiting) :
    deliverEdge d s = { runDelivery d s with freeCount := (runDelivery d s).freeCount + 1 } := by
  unfold deliverEdge
  dsimp only
  split
  · exact settle_of_online h k
  · rfl

theorem sampleLines_moves (c : FilterClass) (v : BitVec 28) (s : State) : Moves s (sampleLines c v s) :=
  Moves.foldl (f := fun l t => t.setLine l ((s.line l).sample (v.getLsbD (lineIx l).val)))
    (fun _ _ => Moves.of_eq rfl rfl rfl) _ _

theorem firstQuad_moves (c : FilterClass) (s t : State) : Moves t (firstQuad c s t) := by
  unfold firstQuad
  split
  · exact Moves.refl t
  · exact Moves.foldl (f := fun a u =>
      if (s.line (.encA a)).sampled && (s.line (.encB a)).sampled then u
      else u.modAxis a fun x => { x with quadA := (quadLevels t a).1, quadB := (quadLevels t a).2 })
      (fun a u => by
        split
        · exact Moves.refl u
        · exact Moves.modAxis (f := fun x => { x with quadA := (quadLevels t a).1, quadB := (quadLevels t a).2 })
            (.single (.quadState _ _ _ (.inl rfl)))) _ _

theorem notePins_moves (c : FilterClass) (v : BitVec 28) (s : State) : Moves s (notePins c v s) := by
  unfold notePins; dsimp only; split <;> exact Moves.of_eq rfl rfl rfl

theorem sampleNow_moves (c : FilterClass) (v : BitVec 28) (s : State) : Moves s (sampleNow c v s) := by
  unfold sampleNow
  dsimp only
  refine Moves.trans ?_ (settle_moves _)
  exact ((notePins_moves ..).trans ((sampleLines_moves ..).trans (firstQuad_moves ..))).trans
    (Moves.inSomeOrder deliverEdge_moves _ _)

/-! ### Timers and pulses -/

theorem stateWork_work (a : Axis) (s : State) : Work s (stateWork a s) := by
  unfold stateWork
  split
  · exact Work.refl s
  · exact considerQueue_work ..
  · next h => exact runWork_work a h
  · next h => exact dwellWork_work a h
  · next h => exact waitWork_work a h
  · exact Work.refl s
  · next h => exact (rampWork_seq a h).toWork
  · exact Work.refl s

theorem expiryWork_work (a : Axis) {s : State} (ho : (s.axis a).st ≠ .off) : Work s (expiryWork a s) := by
  unfold expiryWork
  split
  · split
    · next h => exact (rampWork_seq a h).toWork
    · exact Work.refl s
  · split
    · next h => exact (modAxis_seq (.checkHalted h)).toWork
    · split
      · exact (haltCurrent_seq a _ ho).toWork
      · exact stateWork_work a s

theorem countTimeouts_seq (l : List GroupIx) (s : State) : Seq s (countTimeouts l s) := by
  unfold countTimeouts
  exact (Seq.foldl (f := fun g t => t.modGroup g Group.tick) (fun _ _ => Seq.modGroup (.single .tick)) _ _).trans
    (Seq.inSomeOrder (fun g s => breakGroup_seq g _ s) _ _)

theorem expiryNow_moves (a : Axis) (s : State) : Moves s (expiryNow a s) := by
  unfold expiryNow
  split
  · exact Moves.refl s
  · next h =>
    exact ((modAxis_seq (.expire h)).toMoves.trans ((expiryWork_work a (by simpa [AxisBlock.expire] using h)).toMoves.trans
      (countTimeouts_seq ..).toMoves)).trans (settle_moves _)

theorem pulseNow_moves (a : Axis) (s : State) : Moves s (pulseNow a s) := by
  unfold pulseNow
  split
  · exact Moves.refl s
  · exact Moves.modAxis (.single (.beginPulse _))

theorem pulseEndNow_moves (a : Axis) (s : State) : Moves s (pulseEndNow a s) :=
  Moves.modAxis (f := fun x => { x with pulse := none }) (.single .endPulse)

/-! ### Every command -/

/-- Every command answers a next state, and what it does to the axes and groups is a chain of primitive changes. -/
theorem exec_moves (c : Instr) (s : State) : ∃ t, exec c s = .next t ∧ Moves s t := by
  cases c
  case hardwareReset p => exact ⟨_, rfl, resetBlocks_moves ..⟩
  case softReset => exact ⟨_, rfl, softResetNow_moves _⟩
  case go => exact ⟨_, rfl, goNow_moves _⟩
  case halt => exact ⟨_, rfl, haltNow_moves _⟩
  case tailpost => exact ⟨_, rfl, tailpostNow_moves ..⟩
  case chead => exact ⟨_, rfl, cheadNow_moves ..⟩
  case icauseWrite => exact ⟨_, rfl, Moves.of_eq rfl rfl rfl⟩
  case imodWrite => exact ⟨_, rfl, Moves.of_eq rfl rfl rfl⟩
  case stsWrite => exact ⟨_, rfl, Moves.of_eq rfl rfl rfl⟩
  case registerWrite => exact ⟨_, rfl, writeReg_moves ..⟩
  case portGrant => exact ⟨_, rfl, portGrantNow_moves _⟩
  case setupReadComplete r =>
    show ∃ t, execSetupReadComplete r s = _ ∧ _
    unfold execSetupReadComplete
    split
    · exact ⟨_, rfl, setupReadEnd_moves ..⟩
    · exact ⟨_, rfl, Moves.refl s⟩
  case fetchReadComplete r =>
    show ∃ t, execFetchReadComplete r s = _ ∧ _
    unfold execFetchReadComplete
    split
    · exact ⟨_, rfl, fetchReadEnd_moves ..⟩
    · exact ⟨_, rfl, Moves.refl s⟩
  case mirrorWriteComplete b =>
    show ∃ t, execMirrorWriteComplete b s = _ ∧ _
    unfold execMirrorWriteComplete
    split
    · exact ⟨_, rfl, (endFetch_moves ..).trans (mirrorEnd_moves ..)⟩
    · exact ⟨_, rfl, (freePort_moves s).trans (mirrorEnd_moves ..)⟩
    · exact ⟨_, rfl, Moves.refl s⟩
  case completionWriteComplete b =>
    show ∃ t, execCompletionWriteComplete b s = _ ∧ _
    unfold execCompletionWriteComplete
    split
    · next h => exact ⟨_, rfl, reportEnd_moves _ _ h⟩
    · exact ⟨_, rfl, Moves.refl s⟩
  case holdoffExpiry => exact ⟨_, rfl, holdoffNow_moves _⟩
  case quiesceEnd => exact ⟨_, rfl, quiesceEndNow_moves _⟩
  case updatePeriodExpiry => exact ⟨_, rfl, expiryNow_moves ..⟩
  case stepPulseIssue => exact ⟨_, rfl, pulseNow_moves ..⟩
  case stepPulseEnd => exact ⟨_, rfl, pulseEndNow_moves ..⟩
  case limitEdge => exact ⟨_, rfl, (runDelivery_moves ..).trans (settle_moves _)⟩
  case encoderTransition => exact ⟨_, rfl, runDelivery_moves ..⟩
  case quadratureError =>
    exact ⟨_, rfl, (runDelivery_moves ..).trans (settle_moves _)⟩
  case event => exact ⟨_, rfl, (runDelivery_moves ..).trans (settle_moves _)⟩
  case configureAxis => exact ⟨_, rfl, deliverCommand_moves ..⟩
  case configureInputs => exact ⟨_, rfl, deliverCommand_moves ..⟩
  case enableAxis => exact ⟨_, rfl, deliverCommand_moves ..⟩
  case disableAxis => exact ⟨_, rfl, deliverCommand_moves ..⟩
  case stopAxis => exact ⟨_, rfl, deliverCommand_moves ..⟩
  case abortAxis => exact ⟨_, rfl, deliverCommand_moves ..⟩
  case clearFault => exact ⟨_, rfl, deliverCommand_moves ..⟩
  case defineGroup => exact ⟨_, rfl, deliverCommand_moves ..⟩
  case clearGroup => exact ⟨_, rfl, deliverCommand_moves ..⟩
  case setCaptureArm => exact ⟨_, rfl, deliverCommand_moves ..⟩
  case setCaptureDisarm => exact ⟨_, rfl, deliverCommand_moves ..⟩
  case readStatus => exact ⟨_, rfl, deliverCommand_moves ..⟩
  case nop => exact ⟨_, rfl, deliverCommand_moves ..⟩
  case invalidControlRecord => exact ⟨_, rfl, deliverCommand_moves ..⟩
  case qualifierSample => exact ⟨_, rfl, sampleNow_moves ..⟩

theorem tick_moves (s : State) : Moves s (tick s) := by
  unfold tick
  have h1 : Moves s { s.mapAxes AxisBlock.tick with holdoff := lessTick s.holdoff, fastDue := true } :=
    (Moves.mapAxes fun a => .single .tick).post rfl rfl rfl
  refine h1.trans ?_
  generalize ({ s.mapAxes AxisBlock.tick with holdoff := lessTick s.holdoff, fastDue := true } : State) = t
  unfold slowTick
  have h2 : Moves t (timeTick t) := by
    unfold timeTick
    split
    · split <;> exact Moves.of_eq rfl rfl rfl
    · exact Moves.refl t
  split <;> exact h2.post rfl rfl rfl

/-- Every step answers a next state, and what it does to the axes and groups is a chain of primitive changes. -/
theorem step_moves (s : State) : ∃ t, step s = .next t ∧ Moves s t := by
  unfold step
  split
  · next c rest h =>
    obtain ⟨t, ht, k⟩ := exec_moves c { s with pending := rest }
    exact ⟨t, ht, k.pre rfl rfl rfl⟩
  · refine ⟨_, rfl, ?_⟩
    unfold idle
    split
    · split
      · exact lookNow_moves s
      · exact tick_moves s
    · exact Moves.of_eq rfl rfl rfl

/-! ### What a chain keeps -/

/-- A property of one axis that every primitive change keeps is kept by every step, on every axis. -/
theorem step_axis_keeps {P : AxisBlock → Prop} (h : ∀ x y, AxisStep x y → P x → P y) {s t : State}
    (k : step s = .next t) (hs : ∀ a, P (s.axis a)) (a : Axis) : P (t.axis a) := by
  obtain ⟨u, hu, hm⟩ := step_moves s
  rw [k] at hu
  cases hu
  have hr := hm.axis a
  generalize t.axis a = y at hr
  induction hr with
  | refl => exact hs a
  | tail _ hk ih => exact h _ _ hk ih

/-- A property of one group that every primitive change keeps is kept by every step, on every group. -/
theorem step_group_keeps {P : Group → Prop} (h : ∀ x y, GroupStep x y → P x → P y) {s t : State}
    (k : step s = .next t) (hs : ∀ g, P (s.group g)) (g : GroupIx) : P (t.group g) := by
  obtain ⟨u, hu, hm⟩ := step_moves s
  rw [k] at hu
  cases hu
  have hr := hm.group g
  generalize t.group g = y at hr
  induction hr with
  | refl => exact hs g
  | tail _ hk ih => exact h _ _ hk ih

/-- A property of the rings that every primitive change keeps is kept by every step. -/
theorem step_rings_keeps {P : Rings → Prop} (h : ∀ x y, RingStep x y → P x → P y) {s t : State}
    (k : step s = .next t) (hs : P s.rings) : P t.rings := by
  obtain ⟨u, hu, hm⟩ := step_moves s
  rw [k] at hu
  cases hu
  have hr := hm.rings
  generalize t.rings = y at hr
  induction hr with
  | refl => exact hs
  | tail _ hk ih => exact h _ _ hk ih

end Sys2Proof.Machine
end

