-- ==== Sys2Proof/Laws/Reports.lean ====
section
/-! SUPPORT. What a report does to the completion buffer, what the general pool gives, and what a control record's delivery
comes to in a device that is ONLINE. -/

namespace Sys2Proof.Machine
open Sys2Proof

/-! ### Updates of one part -/

/-- A change of an axis is what it makes of that axis's block. -/
theorem State.modAxis_congr (s : State) (a : Axis) {f g : AxisBlock → AxisBlock} (h : f (s.axis a) = g (s.axis a)) :
    s.modAxis a f = s.modAxis a g := by
  have : f s.axes[a] = g s.axes[a] := h
  simp only [State.modAxis, this]

@[simp] theorem State.setEntry_setEntry (s : State) (e : Fin 24) (v w : Entry) :
    (s.setEntry e v).setEntry e w = s.setEntry e w := by simp [State.setEntry]

@[simp] theorem State.modGroup_modGroup (s : State) (g : GroupIx) (f k : Group → Group) :
    (s.modGroup g f).modGroup g k = s.modGroup g (fun x => k (f x)) := by simp [State.modGroup]

@[simp] theorem State.modFetcher_modFetcher (s : State) (r : Fin 5) (f k : Fetcher → Fetcher) :
    (s.modFetcher r f).modFetcher r k = s.modFetcher r (fun x => k (f x)) := by simp [State.modFetcher]

@[simp] theorem State.setEntry_modAxis (s : State) (e : Fin 24) (v : Entry) (a : Axis) (f : AxisBlock → AxisBlock) :
    (s.setEntry e v).modAxis a f = (s.modAxis a f).setEntry e v := rfl
@[simp] theorem State.setEntry_modFetcher (s : State) (e : Fin 24) (v : Entry) (r : Fin 5) (f : Fetcher → Fetcher) :
    (s.setEntry e v).modFetcher r f = (s.modFetcher r f).setEntry e v := rfl
@[simp] theorem State.setEntry_modGroup (s : State) (e : Fin 24) (v : Entry) (g : GroupIx) (f : Group → Group) :
    (s.setEntry e v).modGroup g f = (s.modGroup g f).setEntry e v := rfl

theorem State.with_waiting {s : State} (h : s.interp = .waiting) : { s with interp := .waiting } = s := by rw [← h]

/-! ### withReport -/

@[simp] theorem State.withReport_pending (s : State) (e : Fin 24) (r : Report) : (s.withReport e r).pending = s.pending := rfl
@[simp] theorem State.withReport_dev (s : State) (e : Fin 24) (r : Report) : (s.withReport e r).dev = s.dev := rfl
@[simp] theorem State.withReport_resetCause (s : State) (e : Fin 24) (r : Report) : (s.withReport e r).resetCause = s.resetCause := rfl
@[simp] theorem State.withReport_setupCode (s : State) (e : Fin 24) (r : Report) : (s.withReport e r).setupCode = s.setupCode := rfl
@[simp] theorem State.withReport_failure (s : State) (e : Fin 24) (r : Report) : (s.withReport e r).failure = s.failure := rfl
@[simp] theorem State.withReport_setupAddr (s : State) (e : Fin 24) (r : Report) : (s.withReport e r).setupAddr = s.setupAddr := rfl
@[simp] theorem State.withReport_setupRead (s : State) (e : Fin 24) (r : Report) : (s.withReport e r).setupRead = s.setupRead := rfl
@[simp] theorem State.withReport_suaLo (s : State) (e : Fin 24) (r : Report) : (s.withReport e r).suaLo = s.suaLo := rfl
@[simp] theorem State.withReport_suaHi (s : State) (e : Fin 24) (r : Report) : (s.withReport e r).suaHi = s.suaHi := rfl
@[simp] theorem State.withReport_postErr (s : State) (e : Fin 24) (r : Report) : (s.withReport e r).postErr = s.postErr := rfl
@[simp] theorem State.withReport_headErr (s : State) (e : Fin 24) (r : Report) : (s.withReport e r).headErr = s.headErr := rfl
@[simp] theorem State.withReport_cplFlag (s : State) (e : Fin 24) (r : Report) : (s.withReport e r).cplFlag = s.cplFlag := rfl
@[simp] theorem State.withReport_failFlag (s : State) (e : Fin 24) (r : Report) : (s.withReport e r).failFlag = s.failFlag := rfl
@[simp] theorem State.withReport_setupFlag (s : State) (e : Fin 24) (r : Report) : (s.withReport e r).setupFlag = s.setupFlag := rfl
@[simp] theorem State.withReport_imod (s : State) (e : Fin 24) (r : Report) : (s.withReport e r).imod = s.imod := rfl
@[simp] theorem State.withReport_writeCount (s : State) (e : Fin 24) (r : Report) : (s.withReport e r).writeCount = s.writeCount := rfl
@[simp] theorem State.withReport_holdoff (s : State) (e : Fin 24) (r : Report) : (s.withReport e r).holdoff = s.holdoff := rfl
@[simp] theorem State.withReport_timeRunning (s : State) (e : Fin 24) (r : Report) : (s.withReport e r).timeRunning = s.timeRunning := rfl
@[simp] theorem State.withReport_time (s : State) (e : Fin 24) (r : Report) : (s.withReport e r).time = s.time := rfl
@[simp] theorem State.withReport_subTick (s : State) (e : Fin 24) (r : Report) : (s.withReport e r).subTick = s.subTick := rfl
@[simp] theorem State.withReport_fetchers (s : State) (e : Fin 24) (r : Report) : (s.withReport e r).fetchers = s.fetchers := rfl
@[simp] theorem State.withReport_port (s : State) (e : Fin 24) (r : Report) : (s.withReport e r).port = s.port := rfl
@[simp] theorem State.withReport_rr (s : State) (e : Fin 24) (r : Report) : (s.withReport e r).rr = s.rr := rfl
@[simp] theorem State.withReport_writer (s : State) (e : Fin 24) (r : Report) : (s.withReport e r).writer = s.writer := rfl
@[simp] theorem State.withReport_interp (s : State) (e : Fin 24) (r : Report) : (s.withReport e r).interp = s.interp := rfl
@[simp] theorem State.withReport_claim (s : State) (e : Fin 24) (r : Report) : (s.withReport e r).claim = s.claim := rfl
@[simp] theorem State.withReport_axes (s : State) (e : Fin 24) (r : Report) : (s.withReport e r).axes = s.axes := rfl
@[simp] theorem State.withReport_groups (s : State) (e : Fin 24) (r : Report) : (s.withReport e r).groups = s.groups := rfl
@[simp] theorem State.withReport_lines (s : State) (e : Fin 24) (r : Report) : (s.withReport e r).lines = s.lines := rfl
@[simp] theorem State.withReport_inputs (s : State) (e : Fin 24) (r : Report) : (s.withReport e r).inputs = s.inputs := rfl
@[simp] theorem State.withReport_slowClock (s : State) (e : Fin 24) (r : Report) : (s.withReport e r).slowClock = s.slowClock := rfl
@[simp] theorem State.withReport_slowDue (s : State) (e : Fin 24) (r : Report) : (s.withReport e r).slowDue = s.slowDue := rfl
@[simp] theorem State.withReport_fastDue (s : State) (e : Fin 24) (r : Report) : (s.withReport e r).fastDue = s.fastDue := rfl
@[simp] theorem State.withReport_pins (s : State) (e : Fin 24) (r : Report) : (s.withReport e r).pins = s.pins := rfl
@[simp] theorem State.withReport_freeCount (s : State) (e : Fin 24) (r : Report) : (s.withReport e r).freeCount = s.freeCount := rfl
@[simp] theorem State.withReport_axis (s : State) (e : Fin 24) (r : Report) (a : Axis) : (s.withReport e r).axis a = s.axis a := rfl
@[simp] theorem State.withReport_fetcher (s : State) (e : Fin 24) (r : Report) (q : Fin 5) :
    (s.withReport e r).fetcher q = s.fetcher q := rfl
@[simp] theorem State.withReport_group (s : State) (e : Fin 24) (r : Report) (g : GroupIx) :
    (s.withReport e r).group g = s.group g := rfl
@[simp] theorem State.withReport_line (s : State) (e : Fin 24) (r : Report) (l : Line) :
    (s.withReport e r).line l = s.line l := rfl
@[simp] theorem State.withReport_fillQueue (s : State) (e : Fin 24) (r : Report) :
    (s.withReport e r).fillQueue = s.fillQueue ++ [e] := rfl
theorem State.withReport_entry (s : State) (e : Fin 24) (r : Report) (k : Fin 24) :
    (s.withReport e r).entry k = if k = e then .filled r else s.entry k := State.setEntry_entry s e (.filled r) k
@[simp] theorem State.withReport_entry_same (s : State) (e : Fin 24) (r : Report) : (s.withReport e r).entry e = .filled r :=
  State.setEntry_entry_same s e (.filled r)
@[simp] theorem State.withReport_modAxis (s : State) (e : Fin 24) (r : Report) (a : Axis) (f : AxisBlock → AxisBlock) :
    (s.withReport e r).modAxis a f = (s.modAxis a f).withReport e r := rfl
@[simp] theorem State.withReport_modFetcher (s : State) (e : Fin 24) (r : Report) (q : Fin 5) (f : Fetcher → Fetcher) :
    (s.withReport e r).modFetcher q f = (s.modFetcher q f).withReport e r := rfl
@[simp] theorem State.withReport_modGroup (s : State) (e : Fin 24) (r : Report) (g : GroupIx) (f : Group → Group) :
    (s.withReport e r).modGroup g f = (s.modGroup g f).withReport e r := rfl
@[simp] theorem State.setEntry_withReport (s : State) (e : Fin 24) (v : Entry) (r : Report) :
    (s.setEntry e v).withReport e r = s.withReport e r := by simp [State.withReport]

/-! ### The contents of a report -/

@[simp] theorem axisReport_setEntry (s : State) (e : Fin 24) (v : Entry) (a : Axis) (k : ReportKind) (st : Status)
    (c : Option FaultCause) (id : RecId) (n m : Nat) (x y : Word) :
    axisReport (s.setEntry e v) a k st c id n m x y = axisReport s a k st c id n m x y := rfl
@[simp] theorem axisReport_withReport (s : State) (e : Fin 24) (r : Report) (a : Axis) (k : ReportKind) (st : Status)
    (c : Option FaultCause) (id : RecId) (n m : Nat) (x y : Word) :
    axisReport (s.withReport e r) a k st c id n m x y = axisReport s a k st c id n m x y := rfl
@[simp] theorem axisReport_modFetcher (s : State) (q : Fin 5) (f : Fetcher → Fetcher) (a : Axis) (k : ReportKind) (st : Status)
    (c : Option FaultCause) (id : RecId) (n m : Nat) (x y : Word) :
    axisReport (s.modFetcher q f) a k st c id n m x y = axisReport s a k st c id n m x y := rfl
@[simp] theorem axisReport_modGroup (s : State) (g : GroupIx) (f : Group → Group) (a : Axis) (k : ReportKind) (st : Status)
    (c : Option FaultCause) (id : RecId) (n m : Nat) (x y : Word) :
    axisReport (s.modGroup g f) a k st c id n m x y = axisReport s a k st c id n m x y := rfl
@[simp] theorem ctlReport_setEntry (s : State) (e : Fin 24) (v : Entry) (a? : Option Axis) (tag : Word) (k : BitVec 5)
    (st : Status) (n m : Nat) (x y : Word) :
    ctlReport (s.setEntry e v) a? tag k st n m x y = ctlReport s a? tag k st n m x y := rfl
@[simp] theorem ctlReport_withReport (s : State) (e : Fin 24) (r : Report) (a? : Option Axis) (tag : Word) (k : BitVec 5)
    (st : Status) (n m : Nat) (x y : Word) :
    ctlReport (s.withReport e r) a? tag k st n m x y = ctlReport s a? tag k st n m x y := rfl
@[simp] theorem ctlReport_modFetcher (s : State) (q : Fin 5) (f : Fetcher → Fetcher) (a? : Option Axis) (tag : Word)
    (k : BitVec 5) (st : Status) (n m : Nat) (x y : Word) :
    ctlReport (s.modFetcher q f) a? tag k st n m x y = ctlReport s a? tag k st n m x y := rfl
@[simp] theorem ctlReport_modGroup (s : State) (g : GroupIx) (f : Group → Group) (a? : Option Axis) (tag : Word)
    (k : BitVec 5) (st : Status) (n m : Nat) (x y : Word) :
    ctlReport (s.modGroup g f) a? tag k st n m x y = ctlReport s a? tag k st n m x y := rfl

/-! ### Filling and releasing an entry -/

/-- In a device that is not FAILED a fill is a report in the buffer (R137, R22). -/
theorem fill_eq_withReport (e : Fin 24) (r : Report) {s : State} (h : s.dev ≠ .failed) : fill e r s = s.withReport e r :=
  fill_of_ne e r h

/-- A segment that completes other than OK, or has its report flag set, leaves a report (R18). -/
theorem reportSegment_fills (a : Axis) {r : AxisRecord} (e : Fin 24) {st : Status} (c : Option FaultCause) (w : Word × Word)
    {s : State} (h : s.dev ≠ .failed) (k : (r.report || st != .ok) = true) :
    reportSegment a r e st c w s = s.withReport e (axisReport s a .segment st c r.id 0 0 w.1 w.2) := by
  unfold reportSegment; rw [if_pos k, fill_eq_withReport e _ h]

/-- One that completes OK with its report flag clear releases its entry (R6). -/
theorem reportSegment_releases (a : Axis) {r : AxisRecord} (e : Fin 24) (c : Option FaultCause) (w : Word × Word)
    {s : State} (h : s.interp = .waiting) (k : r.report = false) : reportSegment a r e .ok c w s = s.setEntry e .free := by
  unfold reportSegment; rw [if_neg (by simp [k]), release_of_waiting e h]

/-- The completion of a control record, in the entry it has taken or in any other (R155). -/
theorem complete_eq (c : CtlRecord) (e : Fin 24) (st : Status) (n k : Nat) (x y : Word) {s : State} (h : s.dev ≠ .failed) :
    complete c e st n k x y s = s.withReport e (ctlReport s c.body.axis? c.tag c.body.kind st n k x y) := by
  unfold complete
  rw [fill_eq_withReport e _ h]
  cases hc : c.body.axis? <;> simp [controlReport, ctlReport, CtlRecord.id]

/-! ### The general pool -/

/-- The entry the pool gives is FREE and general (R134, R135). -/
theorem freeGeneral_some {s : State} {e : Fin 24} (h : s.freeGeneral = some e) : s.FreeGeneral e := by
  have h1 := List.find?_some (p := fun e => (s.entry e).isFree) h
  refine ⟨(by decide : ∀ k ∈ generalEntries, k.val < 16) e (List.mem_of_find?_eq_some h), ?_⟩
  revert h1; cases s.entry e <;> simp [Entry.isFree]

/-- With a general entry FREE the pool gives one. -/
theorem freeGeneral_of {s : State} (h : ∃ e, s.FreeGeneral e) : ∃ e, s.freeGeneral = some e := by
  obtain ⟨e, h1, h2⟩ := h
  cases hf : s.freeGeneral with
  | some e => exact ⟨e, rfl⟩
  | none =>
    have := List.find?_eq_none.1 hf e ((by decide : ∀ k : Fin 24, k.val < 16 → k ∈ generalEntries) e h1)
    simp [h2, Entry.isFree] at this

/-- With none FREE it gives none. -/
theorem freeGeneral_none {s : State} (h : ∀ e, ¬ s.FreeGeneral e) : s.freeGeneral = none := by
  cases hf : s.freeGeneral with
  | some e => exact absurd (freeGeneral_some hf) (h e)
  | none => rfl

/-! ### Delivery of a control record in ONLINE -/

/-- A record whose entry can be taken is accepted, and nothing follows where the device stays ONLINE with none in hand. -/
theorem deliverCommand_takes {s t : State} {tag : Word} {b : CtlBody} {e : Fin 24} (h : s.Ready)
    (k : entryChoice b.checked s = .takes e)
    (hd : accept { tag := tag, body := b.checked } e (s.setEntry e (.reserved .control)) = t) (h1 : t.dev = .online)
    (h2 : t.interp = .waiting) : deliverCommand tag b s = t := by
  unfold deliverCommand
  rw [if_pos (by simp [State.takesControl, h.1, h.2]), judgeRecord_takes k, State.with_waiting h.2, hd,
    settle_of_online h1 h2]

/-- A valid record that needs a general entry, with one FREE. -/
theorem deliverCommand_takes_general {s t : State} {tag : Word} {b : CtlBody} {e : Fin 24} (h : s.Ready)
    (hf : s.freeGeneral = some e) (hb : b.inRange = true) (hs : entryChoice b s = generalChoice s)
    (hd : accept { tag := tag, body := b } e (s.setEntry e (.reserved .control)) = t) (h1 : t.dev = .online)
    (h2 : t.interp = .waiting) : deliverCommand tag b s = t := by
  have hc : b.checked = b := by simp [CtlBody.checked, hb]
  exact deliverCommand_takes h (by rw [hc, hs, generalChoice, hf]) (by rw [hc]; exact hd) h1 h2

/-! ### Sources and orders -/

/-- Different sources have different numbers. -/
theorem sourceIx_injective (x y : Source) (h : sourceIx x = sourceIx y) : x = y := by
  cases x <;> cases y <;> simp only [sourceIx, Fin.ext_iff, Source.trg.injEq, reduceCtorEq] at h ⊢ <;> simp at h <;> omega

theorem AxisBlock.latch_setLatch (x : AxisBlock) (a b : Source) (l : Latch) :
    (x.setLatch a l).latch b = if b = a then l else x.latch b := by
  by_cases h : b = a
  · subst h; simp [AxisBlock.latch, AxisBlock.setLatch]
  · have : (sourceIx a).val ≠ (sourceIx b).val := fun k => h (sourceIx_injective _ _ (Fin.ext k)).symm
    simp [AxisBlock.latch, AxisBlock.setLatch, h, this]

/-- The order a free value gives takes every event once. -/
theorem arrange_perm {α : Type} (seed n : Nat) (l : List α) (h : l.length ≤ n) : (arrange seed n l).Perm l := by
  induction n generalizing l with
  | zero => simp [List.eq_nil_of_length_eq_zero (Nat.le_zero.1 h), arrange]
  | succ n ih =>
    match l, h with
    | [], _ => exact .refl _
    | [_], _ => exact .refl _
    | x :: y :: l, h =>
      have hi : Config.freeOrder (seed + n) % (x :: y :: l).length < (x :: y :: l).length := Nat.mod_lt _ (by simp)
      have hl : ((x :: y :: l).eraseIdx (Config.freeOrder (seed + n) % (x :: y :: l).length)).length ≤ n := by
        rw [List.length_eraseIdx_of_lt hi]; simp at h ⊢; omega
      simp only [arrange]
      rw [List.getElem?_eq_getElem hi, Option.getD_some]
      exact ((ih _ hl).cons _).trans (List.getElem_cons_eraseIdx_perm hi)

/-- An operation that works on one axis at a time, run over axes in a list: each of them is worked on once. `I` is what the
operation keeps of the rest of the state. -/
theorem foldl_axis {I : State → Prop} {f : Axis → State → State} {F : Axis → AxisBlock → AxisBlock}
    (hI : ∀ a s, I s → I (f a s)) (hf : ∀ a s b, I s → (f a s).axis b = if b = a then F a (s.axis a) else s.axis b)
    (l : List Axis) (hn : l.Nodup) (s : State) (hs : I s) :
    I (l.foldl (fun t x => f x t) s) ∧
      ∀ b, (l.foldl (fun t x => f x t) s).axis b = if b ∈ l then F b (s.axis b) else s.axis b := by
  induction l generalizing s with
  | nil => exact ⟨hs, fun b => by simp⟩
  | cons a l ih =>
    obtain ⟨h1, h2⟩ := ih (List.nodup_cons.1 hn).2 (f a s) (hI a s hs)
    refine ⟨h1, fun b => ?_⟩
    have ha : a ∉ l := (List.nodup_cons.1 hn).1
    simp only [List.foldl_cons, h2, hf a s _ hs, List.mem_cons]
    by_cases e : b = a
    · subst e; simp [ha]
    · simp [e]

/-- The same in the order a free value gives. -/
theorem inSomeOrder_axis {I : State → Prop} {f : Axis → State → State} {F : Axis → AxisBlock → AxisBlock}
    (hI : ∀ a s, I s → I (f a s)) (hf : ∀ a s b, I s → (f a s).axis b = if b = a then F a (s.axis a) else s.axis b)
    (l : List Axis) (hn : l.Nodup) (s : State) (hs : I { s with freeCount := s.freeCount + l.length }) :
    I (inSomeOrder l f s) ∧ ∀ b, (inSomeOrder l f s).axis b = if b ∈ l then F b (s.axis b) else s.axis b := by
  have hp := arrange_perm s.freeCount l.length l (le_refl _)
  obtain ⟨h1, h2⟩ := foldl_axis hI hf _ (hp.nodup_iff.2 hn) { s with freeCount := s.freeCount + l.length } hs
  exact ⟨h1, fun b => by have := h2 b; simp only [hp.mem_iff] at this; exact this⟩

end Sys2Proof.Machine
end

