-- ==== Sys2Proof/WellFormed.lean ====
section
/-! DEFINITION. Which commands are well formed: operands that a register write, a record's fields (Tables 12-5, 12-6, with the
range checks of Table 10-3) or an input can carry. -/

namespace Sys2Proof

/-- A number that fits in `n` bits. -/
def fits (n v : Nat) : Bool := v < 2 ^ n

/-- An optional number that, when present, lies in a range. -/
def optRange (o : Option Nat) (lo hi : Nat) : Bool :=
  match o with
  | none => true
  | some v => lo ≤ v && v ≤ hi

/-- The fields of a configuration fit the places a CONFIGURE_AXIS record has for them (Table 12-6). -/
def AxisConfig.fitsRecord (c : AxisConfig) : Bool :=
  fits 16 c.updatePeriod && fits 16 c.followWindow && fits 32 c.maxRate && fits 32 c.creepRate && fits 32 c.jumpLimit
    && fits 32 c.stopDecel && fits 8 c.countsPerStep && fits 4 c.pulseWidth && fits 8 c.dirSetup

/-- The ranges of a CONFIGURE_INPUTS record (R87). -/
def InputsConfig.inRange (c : InputsConfig) : Bool :=
  (1 ≤ c.fastDepth && c.fastDepth ≤ 7) && (2 ≤ c.slowDepth && c.slowDepth ≤ 15)
    && (1 ≤ c.slowInterval && c.slowInterval ≤ 1000)

/-- How many axes a set names. -/
def AxisSet.size (m : AxisSet) : Nat :=
  (m.getLsbD 0).toNat + (m.getLsbD 1).toNat + (m.getLsbD 2).toNat + (m.getLsbD 3).toNat

/-- A command is well formed. Axis, group, line, source and register operands are so by their types. -/
def Instr.wellFormed : Instr → Bool
  | .hardwareReset _ => true
  | .softReset => true
  | .go => true
  | .halt => true
  | .tailpost _ _ => true
  | .chead _ => true
  | .icauseWrite _ _ _ => true
  | .imodWrite _ _ _ _ _ => true
  | .stsWrite _ _ => true
  | .registerWrite _ _ => true
  | .portGrant => true
  | .setupReadComplete _ => true
  | .fetchReadComplete _ => true
  | .mirrorWriteComplete _ => true
  | .completionWriteComplete _ => true
  | .holdoffExpiry => true
  | .quiesceEnd => true
  | .updatePeriodExpiry _ => true
  | .stepPulseIssue _ => true
  | .stepPulseEnd _ => true
  | .limitEdge _ _ _ => true
  | .encoderTransition _ _ _ => true
  | .quadratureError _ => true
  | .event _ => true
  | .configureAxis _ _ cfg => cfg.fitsRecord
  | .configureInputs _ cfg => cfg.inRange
  | .enableAxis _ _ => true
  | .disableAxis _ _ => true
  | .stopAxis _ _ d => optRange d 1 262144
  | .abortAxis _ _ => true
  | .clearFault _ _ _ _ => true
  | .defineGroup _ _ m _ t => 2 ≤ m.size && optRange t 1 65535
  | .clearGroup _ _ => true
  | .setCaptureArm _ _ _ n => optRange n 1 255
  | .setCaptureDisarm _ _ => true
  | .readStatus _ _ => true
  | .nop _ => true
  | .invalidControlRecord _ _ _ => true
  | .qualifierSample _ _ => true

end Sys2Proof
end

