-- ==== Sys2Proof/Tests/Slice0.lean ====
section
/-! SUPPORT. Tests: ill-formed commands that the checks refuse, one-step tests whose expected results are the spec's tables and
examples, and, for each statement with hypotheses, a state that meets them. -/

namespace Sys2Proof.Tests
open Sys2Proof Sys2Proof.Machine

/-! ### States -/

/-- The state a command leaves. -/
def after (c : Instr) (s : State) : State :=
  match exec c s with
  | .next t => t
  | .fault _ => s
  | .refused _ => s

/-- A fetcher of a ring of 8 slots. -/
def ring8 : Fetcher := { Fetcher.reset with size := 8 }

/-- A device in ONLINE, its rings of 8 slots, its samples taken. -/
def online : State :=
  { State.reset with
    dev := .online, timeRunning := true, fetchers := Vector.replicate 5 ring8, writer := { Writer.reset with size := 8 }
    fastDue := false, slowDue := false }

/-- A state with the block of one axis replaced. -/
def put (a : Axis) (x : AxisBlock) (s : State) : State := s.modAxis a fun _ => x

/-- A state with its pool of entries taken. -/
def fullPool (s : State) : State := { s with entries := Vector.replicate 24 (.reserved .control) }

/-- An axis in IDLE. -/
def idleAxis : AxisBlock := AxisBlock.reset.enabled

/-- The MOVEs of Table 2-5, and one of one step. -/
def moveA : Move := { dir := .forward, steps := 4, startRate := some 32768, delta := 16384, exit := .continue, sync := none }
def moveB : Move := { dir := .forward, steps := 3, startRate := none, delta := -16384, exit := .rest, sync := none }

def recOf (tag : Word) (b : AxisBody) : AxisRecord := { tag := tag, report := true, body := b }

/-- An active segment in general entry 3. -/
def segOf (b : AxisBody) : Segment := { record := recOf 0xA0 b, entry := 3, issued := 0, overrun := 0, expiries := 0 }

/-- The configuration of section 2.8. -/
def cfg28 : AxisConfig := { AxisConfig.reset with maxRate := 131072, jumpLimit := 50000 }

/-- An axis in RUN on MOVE `m` at a rate. -/
def runAxis (m : Move) (rate frac rem : Nat) : AxisBlock :=
  { idleAxis with st := .run, active := some (segOf (.move m)), cfg := cfg28, rate := rate, frac := frac, remaining := rem }

/-- Axis 2 just before expiry E1 of Table 2-5. -/
def running : State := put 2 (runAxis moveA 32768 32768 4) online

/-- Axis 2 after expiry E7 of Table 2-5, on MOVE B whose steps are all computed. -/
def ending : State := put 2 (runAxis moveB 49152 0 0) online

/-- Axis 3 in RAMP_DOWN with a pending STOP_AXIS, at expiry F1 of Table 2-6. -/
def pendingStop : StopReq := { kind := .stop, tag := 9, entry := 23, superseded := 0 }
def ramping (rate frac : Nat) : State :=
  put 3 { runAxis moveA rate frac 4 with st := .rampDown, decel := 20000, stopReq := some pendingStop } online

/-- Axis 1 in DWELL or WAIT_EVENT. -/
def dwelling : State := put 1 { idleAxis with st := .dwell, active := some (segOf (.dwell 3 none)) } online
def waitTrg : Wait := { src := .trg 2, policy := .fresh, timeout := some 3, ref := some 0 }
def waiting : State := put 1 { idleAxis with st := .waitEvent, active := some (segOf (.wait waitTrg)) } online

/-- A HALTED axis 1 with its FAULT report written. -/
def haltedAxis : AxisBlock := { idleAxis with st := .halted, cause := some .following, further := 2 }
def halted : State := put 1 haltedAxis online

/-! ### Ill-formed commands: one for each check of WellFormed -/

theorem test_illFormed_updatePeriod :
    (Instr.configureAxis 0 1 { AxisConfig.reset with updatePeriod := 65536 }).wellFormed = false := by decide
theorem test_illFormed_followWindow :
    (Instr.configureAxis 0 1 { AxisConfig.reset with followWindow := 65536 }).wellFormed = false := by decide
theorem test_illFormed_maxRate :
    (Instr.configureAxis 0 1 { AxisConfig.reset with maxRate := 4294967296 }).wellFormed = false := by decide
theorem test_illFormed_creepRate :
    (Instr.configureAxis 0 1 { AxisConfig.reset with creepRate := 4294967296 }).wellFormed = false := by decide
theorem test_illFormed_jumpLimit :
    (Instr.configureAxis 0 1 { AxisConfig.reset with jumpLimit := 4294967296 }).wellFormed = false := by decide
theorem test_illFormed_stopDecel :
    (Instr.configureAxis 0 1 { AxisConfig.reset with stopDecel := 4294967296 }).wellFormed = false := by decide
theorem test_illFormed_countsPerStep :
    (Instr.configureAxis 0 1 { AxisConfig.reset with countsPerStep := 256 }).wellFormed = false := by decide
theorem test_illFormed_pulseWidth :
    (Instr.configureAxis 0 1 { AxisConfig.reset with pulseWidth := 16 }).wellFormed = false := by decide
theorem test_illFormed_dirSetup :
    (Instr.configureAxis 0 1 { AxisConfig.reset with dirSetup := 256 }).wellFormed = false := by decide
theorem test_illFormed_fastDepth :
    (Instr.configureInputs 1 { InputsConfig.reset with fastDepth := 8 }).wellFormed = false := by decide
theorem test_illFormed_slowDepth :
    (Instr.configureInputs 1 { InputsConfig.reset with slowDepth := 1 }).wellFormed = false := by decide
theorem test_illFormed_slowInterval :
    (Instr.configureInputs 1 { InputsConfig.reset with slowInterval := 1001 }).wellFormed = false := by decide
theorem test_illFormed_stopDeceleration : (Instr.stopAxis 0 1 (some 262145)).wellFormed = false := by decide
theorem test_illFormed_members : (Instr.defineGroup 0 1 0b0100 false none).wellFormed = false := by decide
theorem test_illFormed_timeout : (Instr.defineGroup 0 1 0b0110 false (some 0)).wellFormed = false := by decide
theorem test_illFormed_captureCount : (Instr.setCaptureArm 0 1 .index (some 256)).wellFormed = false := by decide

/-! ### The opcode table gives no bits -/

theorem test_decode_none : decodeTableWord 32 0x10 = none := by decide

/-! ### One step each: resets, registers and device states -/

/-- Table 12-10: STS after a power-on reset reads OFFLINE and POWER; a RESET pin gives PIN, a soft reset SOFT (R164). -/
theorem test_reset_causes :
    State.reset.readReg .sts = 0 ∧ (after (.hardwareReset false) online).readReg .sts = 0x10#32 ∧
      (after .softReset online).readReg .sts = 0x20#32 := by decide

/-- Table 11-1: IMOD after a reset reads 0x100. -/
theorem test_reset_imod : State.reset.readReg .imod = 0x100#32 := by decide

/-- Section 13.1: CTL GO with the setup address 0x8000_0000 starts the device. -/
theorem test_go : (after (.registerWrite .ctl 1) (after (.registerWrite .suaLo 0x80000000#32) State.reset)).setupAddr
    = 0x80000000#64 := by decide
theorem test_go_misaligned : (after .go { State.reset with suaLo := 32 }).readReg .sts = 0x200#32 := by decide

/-- R163: HALT in ONLINE. -/
theorem test_halt : (after .halt online).dev = .quiescing := by decide

/-- R122 and R164: a tail equal to the ring's size sets POST_ERR. -/
theorem test_tailpost : ((after (.tailpost 4 7) online).fetcher 4).tail = 7 := by decide
theorem test_tailpost_error : (after (.tailpost 4 8) online).readReg .sts = 0x1000002#32 := by decide

/-- Section 9.8: CHEAD 3 is taken with host head 0 and tail 7, and CHEAD 2 then sets HEAD_ERR. -/
theorem test_chead : (after (.chead 3) { online with writer := { online.writer with tail := 7 } }).writer.hostHead = 3 := by
  decide
theorem test_chead_error :
    (after (.chead 2) { online with writer := { online.writer with tail := 7, hostHead := 3 } }).headErr = true := by decide

theorem test_icause : (after (.icauseWrite true false false) { online with cplFlag := true, failFlag := true }).readReg .icause
    = 2#32 := by decide
theorem test_imod_zero : (after (.registerWrite .imod 0x00C80001#32) online).readReg .imod = 0x00C80101#32 := by decide
theorem test_sts : (after (.registerWrite .sts 0x01000000#32) { online with postErr := true, headErr := true }).readReg .sts
    = 0x2000002#32 := by decide
theorem test_holdoff : (after .holdoffExpiry { online with holdoff := some 0 }).cplFlag = true := by decide
theorem test_quiesceEnd : (after .quiesceEnd { online with dev := .quiescing }).dev = .offline := by decide

/-! ### One step each: the memory port -/

/-- R129: with the pointer at axis 1's ring and no mirror write pending, ring 3 is next. -/
def posted : State :=
  (put 1 idleAxis (put 2 idleAxis { online with rr := 2 })).modFetcher 3 fun f => { f with tail := 1, base := 0x1000 }
theorem test_portGrant : (after .portGrant posted).port = some (.fetchRead 3 0x1000) := by decide

/-- Section 13.1: the third setup read follows the second, 32 bytes on. -/
def starting (k : Fin 4) (l : List Block32) : State :=
  { State.reset with
    dev := .starting, setupRead := some { next := k, chunks := l }, port := some (.setupRead k 0) }
theorem test_setupRead : (after .portGrant (after (.setupReadComplete (.data 0)) (starting 1 [0]))).port
    = some (.setupRead 2 64) := by decide
theorem test_setupRead_busError : (after (.setupReadComplete .busError) (starting 1 [0])).readReg .sts = 0x300#32 := by
  decide

/-- A read of ring 2 for axis 1, its record in flight. -/
def fetching : State :=
  { (put 1 idleAxis online).modFetcher 2 (fun f => { f with tail := 2, inFlight := some { slot := 0, cancelled := false } }) with
    port := some (.fetchRead 2 0) }

/-- Table 12-5: a MARK with tag 0x11 and the report flag set, byte 0 5, byte 1 1, bytes 4 to 7 the tag. -/
theorem test_fetchRead : ((after (.fetchReadComplete (.data 0x1100000105#256)) fetching).axis 1).staging
    = [{ tag := 0x11, report := true, body := .mark }] := by decide
theorem test_mirrorWrite : (after (.mirrorWriteComplete false) { online with port := some (.mirror 2 0 0) }).port = none := by
  decide

/-- Section 9.8: the write of sequence 7 at slot 7 moves the tail to 0. -/
def writing : State :=
  { online.setEntry 3 (.writing (ctlReport online none 1 0x1B .ok 0 0 0 0)) with
    port := some (.report 3 0 0), writer := { online.writer with tail := 7, hostHead := 3, seq := 7 }, writeCount := 3
    imod := { Imod.reset with threshold := 4 } }
theorem test_completionWrite : (after (.completionWriteComplete false) writing).writer.tail = 0 := by decide
theorem test_completionWrite_threshold : (after (.completionWriteComplete false) writing).cplFlag = true := by decide

/-! ### One step each: axes and inputs -/

/-- Table 2-5, E1: rate 49,152, one step, fraction 16,384, remaining 3. -/
theorem test_expiry_run : let x := (after (.updatePeriodExpiry 2) running).axis 2
    (x.rate, x.periodSteps, x.frac, x.remaining) = (49152, 1, 16384, 3) := by decide

/-- Table 2-5, E8: MOVE B ends OK and the axis is IDLE. -/
theorem test_expiry_end : ((after (.updatePeriodExpiry 2) ending).axis 2).st = .idle := by decide

/-- Table 6-4: the pulses of the first period of a reverse MOVE rise at 5.00, 338.32 and 671.66 µs. -/
theorem test_pulse_instants :
    ((AxisBlock.enterRun { moveA with dir := .reverse, startRate := some 196608, steps := 9 } idleAxis).schedule.map
      fun n => 2 * n) = [500, 33832, 67166] := by decide

/-- Table 6-5: a pulse in the forward direction at counts per step 4 takes the accumulator from 14 to 18. -/
theorem test_pulse : ((after (.stepPulseIssue 2)
    (put 2 { runAxis moveA 1 0 1 with schedule := [0], acc := 14, cfg := { cfg28 with countsPerStep := 4 } } online)).axis 2).acc
    = 18 := by decide
theorem test_pulseEnd : ((after (.stepPulseEnd 2) (put 2 { idleAxis with pulse := some 0 } online)).axis 2).pulse = none := by
  decide

/-- R89: a forward axis meets its positive limit. -/
theorem test_limit : ((after (.limitEdge 2 .pos true) running).axis 2).cause = some .limitPos := by decide

/-- Table 6-2: A rising with B low is a forward count, which falls on the accumulator (Table 6-5). -/
theorem test_encoder : ((after (.encoderTransition 0 .a true) online).axis 0).encPos = 1 := by decide
theorem test_quadratureError : ((after (.quadratureError 0) online).axis 0).quadErrs = 1 := by decide

/-- Table 5-4: the second event of a set latch sets the overrun and keeps the time. -/
theorem test_event : ((after (.event (.trg 2))
    (put 0 (idleAxis.setLatch (.trg 2) { flag := true, overrun := false, time := 5020 }) { online with time := 6110 })).axis 0).latch
      (.trg 2) = { flag := true, overrun := true, time := 5020 } := by decide

/-- Table 5-2: HOME1 after the third high sample in a row, its polarity FALLING. -/
def thirdHigh : State :=
  { online with inputs := { InputsConfig.reset with polarity := 0xFFF } }.setLine (.home 1)
    { level := false, run := 3, sampled := true }

/-- Table 5-2: the fourth high sample in a row qualifies HOME1 high; the edge is no event. -/
theorem test_sample : ((after (.qualifierSample .slow 0x800#28) thirdHigh).line (.home 1)).level = true ∧
    ((after (.qualifierSample .slow 0x800#28) thirdHigh).axis 1).latches = (thirdHigh.axis 1).latches := by
  have h : after (.qualifierSample .slow 0x800#28) thirdHigh = settle (inSomeOrder
      (deliveries .slow 0x800#28 thirdHigh) deliverEdge (firstQuad .slow thirdHigh
        (sampleLines .slow 0x800#28 (notePins .slow 0x800#28 thirdHigh)))) := rfl
  rw [show deliveries .slow 0x800#28 thirdHigh = [.event (.home 1) true] by decide, inSomeOrder_one,
    deliverEdge_of_online _ (by decide) (by decide), settle_of_online (by decide) (by decide)] at h
  rw [h]
  decide

/-! ### One step each: control records -/

theorem test_configureAxis : (after (.configureAxis 0 1 cfg28) online).axis 0 = { AxisBlock.reset with cfg := cfg28 } := by
  decide
theorem test_configureInputs :
    (after (.configureInputs 1 { InputsConfig.reset with slowDepth := 15 }) online).inputs.slowDepth = 15 := by decide
theorem test_enableAxis : ((after (.enableAxis 0 1) online).axis 0).timer = some 50000 := by decide
theorem test_disableAxis : ((after (.disableAxis 1 1) halted).axis 1).st = .off := by decide

/-- Table 2-6: a STOP_AXIS with deceleration 20,000, and the rate at F1. -/
theorem test_stopAxis : ((after (.stopAxis 2 1 (some 20000)) running).axis 2).st = .rampDown := by decide
theorem test_ramp : ((after (.updatePeriodExpiry 3) (ramping 65536 0)).axis 3).rate = 45536 := by decide

/-- Table 3-5: an ABORT_AXIS takes over the pending request's slot, with its tag as superseded. -/
theorem test_abortAxis :
    (match (after (.abortAxis 3 0x52) (ramping 81920 8192)).entry 23 with
      | .filled r => (r.echo, r.tag, r.status, r.wordB)
      | _ => (0, 0, .busy, 0)) = (0x15, 0x52, .ok, 9) := by decide
theorem test_clearFault : ((after (.clearFault 1 1 false true) halted).axis 1).st = .idle := by decide
theorem test_defineGroup : ((after (.defineGroup 5 1 0b1011 true (some 3)) online).group 5).st = .armed := by decide
theorem test_clearGroup : ((after (.clearGroup 5 1)
    (online.modGroup 5 fun _ => { Group.reset with st := .broken, members := 3 })).group 5) = Group.reset := by decide

/-- Table 7-3: the arm of a count of 3, and after its first capture. -/
def armed : State := after (.setCaptureArm 2 0x70 .index (some 3)) running
theorem test_setCaptureArm : ((armed.axis 2).arm.armed, (armed.axis 2).arm.remaining) = (true, some 3) := by decide
theorem test_capture : ((after (.event (.encI 2)) armed).axis 2).arm.remaining = some 2 := by decide
theorem test_setCaptureDisarm : ((after (.setCaptureDisarm 2 1) armed).axis 2).arm.armed = false := by decide

/-- Tables 12-8 and 12-9: READ_STATUS of a HALTED axis with two further faults. -/
theorem test_readStatus :
    (match (after (.readStatus 1 1) halted).entry 0 with
      | .filled r => (r.kind, causeCode r.cause, r.wordA)
      | _ => (.segment, 0, 0)) = (.status, 3, 0x2700000#32) := by decide
/-- R155: a record marked invalid with the kind code of READ_STATUS gives a STATUS report. -/
theorem test_invalidReadStatus :
    (match (after (.invalidControlRecord 0x1A 1 1) halted).entry 0 with
      | .filled r => (r.kind, r.status, causeCode r.cause, r.echo)
      | _ => (.segment, .ok, 0, 0)) = (.status, .invalid, 3, 0x1A) := by decide
theorem test_nop : (after (.nop 1) online).fillQueue = [0] := by decide
theorem test_invalidControlRecord :
    (match (after (.invalidControlRecord 0x14 2 1) online).entry 22 with
      | .filled r => (r.echo, r.status)
      | _ => (0, .ok)) = (0x14, .invalid) := by decide

/-! ### Witnesses: for each statement with hypotheses, states that meet them

A witness of a statement with several clauses meets each of them, at boundary values. -/

/-- The reset state with a command waiting. -/
def queued : State := { State.reset with pending := [.go, .halt] }

/-- The same axis blocks but one. -/
theorem axis_put (a : Axis) (x : AxisBlock) (s : State) (b : Axis) : (put a x s).axis b = if b = a then x else s.axis b := by
  simp [put, State.modAxis_axis]

theorem online_axis (b : Axis) : online.axis b = AxisBlock.reset := by
  simp [online, State.reset, State.axis]

/-- A holding interpreter, a full pool and a report on the port. -/
def holdingNop : State :=
  { fullPool online with interp := .holding { tag := 1, body := .nop }, port := some (.report 15 0 0) }

/-- Groups: one whose gathering axis 1 completes, and one that axis 0, its lowest member, counts. -/
def heldDwell (g : GroupIx) : AxisBlock :=
  { idleAxis with
    st := .waitSync, held := some { record := recOf 0x31 (.dwell 1 (some g)), group := g, entry := 5 }
    cfg := { AxisConfig.reset with limitsOn := false } }
def moveS : Move :=
  { dir := .forward, steps := 400, startRate := some 16, delta := 512, exit := .rest, sync := some 5 }
def gathering : State :=
  (put 3 (heldDwell 5) (put 1 { idleAxis with
      staging := [recOf 0x1B (.move moveS)], cfg := { AxisConfig.reset with limitsOn := false } } online)).modGroup 5
    fun _ => { Group.reset with st := .gathering, members := 0b1010, arrived := 0b1000, timeout := some 3, count := 2 }
def gatheringHeld : State :=
  (put 0 (heldDwell 5) online).modGroup 5
    fun _ => { Group.reset with st := .gathering, members := 0b1001, arrived := 0b0001, timeout := some 3, count := 2 }

/-- Axes 1 and 3 in WAIT_SYNC on group 5, whose member 0 has not arrived; axis 1 with feedback and its accumulator just outside the
window, and a read of its ring on the port. -/
def gatheringPair : State :=
  { (((put 1 { heldDwell 5 with cfg := { AxisConfig.reset with countsPerStep := 64 }, acc := 1001 }
      (put 3 { heldDwell 5 with held := some { record := recOf 0x33 (.dwell 1 (some 5)), group := 5, entry := 6 } } online)).modGroup 5
      fun _ => { Group.reset with st := .gathering, members := 0b1011, arrived := 0b1010, timeout := some 1 }).modFetcher 2
      fun f => { f with inFlight := some { slot := 0, cancelled := false } }) with
    port := some (.fetchRead 2 0) }

/-- What axis 1 of `gatheringPair` holds. -/
def heldOne : Held := { record := recOf 0x31 (.dwell 1 (some 5)), group := 5, entry := 5 }

theorem gatheringPair_gathers : gatheringPair.Gathers 1 heldOne where
  state := by decide
  holds := by decide
  record := by decide
  request := by decide
  entry := by decide
  group := by decide
  others := by
    intro b hb ha
    have h : ∀ b, b ≠ 1 → setHas (gatheringPair.group heldOne.group).arrived b = true → b = 3 := by decide
    obtain rfl := h b hb ha
    exact ⟨by decide, by decide, { record := recOf 0x33 (.dwell 1 (some 5)), group := 5, entry := 6 }, by decide, by decide, by decide⟩

/-- An IDLE axis with a record staged. -/
def staged (b : AxisBody) : State := put 2 { idleAxis with staging := [recOf 0xA0 b], cfg := cfg28 } online

/-- One axis in each state that a HALT finds. -/
def mixed : State :=
  put 0 (runAxis moveA 32768 0 4) (put 1 { idleAxis with st := .dwell, active := some (segOf (.dwell 3 none)) }
    (put 2 haltedAxis online))

/-- A setup block: six rings of 8 slots (Table 12-1), and one whose ring 3 has size 12. -/
def chunkOf (base0 size0 base1 size1 : Nat) : Block32 :=
  BitVec.ofNat 256 (base0 + size0 * 2 ^ 64 + base1 * 2 ^ 128 + size1 * 2 ^ 192)
def starting3 (c : Block32) : State := starting 3 [chunkOf 0 8 0x2000 1024, c, chunkOf 0x4000 8 0x5000 8]

theorem witness_StepRunsFront :
    queued.pending = .go :: [.halt] := rfl
theorem witness_EmptyQueueStep :
    online.pending = [] ∧ dueEvents online = [] ∧ online.heldCan = false ∧ online.timeRunning = true ∧ online.subTick < 50 ∧
      { online with subTick := 49 }.subTick < 50 ∧ { online with slowClock := 1 }.slowClock ≤ 1 ∧
      (let s := { online with interp := .holding { tag := 1, body := .nop } };
        s.pending = [] ∧ dueEvents s = [] ∧ s.heldCan = true) ∧
      dueEvents { online with holdoff := some 0 } = [.holdoffExpiry] ∧
      dueEvents posted = [.portGrant] ∧
      dueEvents { starting 0 [] with port := none, fastDue := false, slowDue := false } = [.portGrant] ∧
      dueEvents { online with dev := .quiescing } = [.quiesceEnd] ∧
      dueEvents { online with fastDue := true, slowDue := true, pins := 5 } = [.qualifierSample .fast 5, .qualifierSample .slow 5] ∧
      dueEvents (put 1 { idleAxis with timer := some 0, schedule := [0] } online) = [.updatePeriodExpiry 1, .stepPulseIssue 1] ∧
      dueEvents (put 1 { idleAxis with timer := some 0, pulse := some 0 } online) = [.stepPulseEnd 1] ∧
      dueEvents { State.reset with fastDue := false, slowDue := false } = [] ∧ State.reset.timeRunning = false := by decide

/-- An axis that runs MOVE A at 32,768 meets the invariants of an axis, and so do the axes at their reset values beside it. -/
theorem runAxis_invariants : (runAxis moveA 32768 32768 4).RatesInRange ∧ (runAxis moveA 32768 32768 4).OutputsFollow ∧
    (runAxis moveA 32768 32768 4).CauseInHalted ∧ (runAxis moveA 32768 32768 4).CountsInRange := by
  refine ⟨⟨?_, ?_, ?_, ?_, ?_, ?_, ?_, ?_⟩, ⟨?_, ?_, ?_, ?_⟩, ⟨?_, ?_, ?_⟩, ⟨?_, ?_, ?_, ?_, ?_⟩⟩ <;>
    simp [AxisBlock.HeldInWaitSync, runAxis, idleAxis, AxisBlock.enabled, AxisBlock.reset, cfg28, AxisConfig.reset,
      firstFailing, configChecks, dirLevel, AxisBlock.latch, Latch.clear, CaptureArm.reset]

theorem offAxis_invariants : AxisBlock.reset.RatesInRange ∧ AxisBlock.reset.OutputsFollow ∧
    AxisBlock.reset.CauseInHalted ∧ AxisBlock.reset.CountsInRange := by
  refine ⟨⟨?_, ?_, ?_, ?_, ?_, ?_, ?_, ?_⟩, ⟨?_, ?_, ?_, ?_⟩, ⟨?_, ?_, ?_⟩, ⟨?_, ?_, ?_, ?_, ?_⟩⟩ <;>
    simp [AxisBlock.HeldInWaitSync, AxisBlock.reset, AxisConfig.reset, firstFailing, configChecks, dirLevel,
      AxisBlock.latch, Latch.clear, CaptureArm.reset]

/-- `running`, with an expiry of the running axis at the front of its queue, meets the hypotheses of the four invariants of an
axis. -/
theorem witness_axisInvariants :
    (∀ a, (running.axis a).RatesInRange ∧ (running.axis a).OutputsFollow ∧ (running.axis a).CauseInHalted ∧
      (running.axis a).CountsInRange) ∧
    step { running with pending := [.updatePeriodExpiry 2] } = .next (after (.updatePeriodExpiry 2) running) := by
  refine ⟨fun a => ?_, rfl⟩
  rw [running, axis_put, online_axis]
  split
  · exact runAxis_invariants
  · exact offAxis_invariants

theorem witness_RatesStayInRange : ∀ a, (running.axis a).RatesInRange := fun a => (witness_axisInvariants.1 a).1
theorem witness_OutputsFollowAxisState : ∀ a, (running.axis a).OutputsFollow := fun a => (witness_axisInvariants.1 a).2.1
theorem witness_CauseOnlyInHalted : ∀ a, (running.axis a).CauseInHalted := fun a => (witness_axisInvariants.1 a).2.2.1
theorem witness_CountsStayInRange : ∀ a, (running.axis a).CountsInRange := fun a => (witness_axisInvariants.1 a).2.2.2

/-- `gathering` meets the hypotheses of the groups' invariant. -/
theorem witness_GroupsStayWellKept : (∀ g, (gathering.group g).WellKept) ∧
    step { gathering with pending := [.updatePeriodExpiry 1] } = .next (after (.updatePeriodExpiry 1) gathering) := by
  refine ⟨fun g => ?_, rfl⟩
  rw [gathering, State.modGroup_group]
  split
  · exact ⟨by decide, by decide, by decide⟩
  · have : ∀ k, (put 3 (heldDwell 5) (put 1 { idleAxis with
        staging := [recOf 0x1B (.move moveS)], cfg := { AxisConfig.reset with limitsOn := false } } online)).group k
        = Group.reset := by decide
    rw [this]; exact ⟨by decide, by decide, by decide⟩

/-- `writing`, whose report write is at the last slot of its ring, meets the hypotheses of the rings' invariant. -/
theorem witness_RingIndicesStayInRange : writing.RingsInRange ∧
    step { writing with pending := [.completionWriteComplete false] } = .next (after (.completionWriteComplete false) writing) := by
  refine ⟨⟨fun r => ?_, ?_, fun _ _ _ _ => by decide⟩, rfl⟩
  · exact .inl (by revert r; decide)
  · exact .inl (by decide)

/-- `fetching` with three records staged for axis 1 meets the hypotheses of the staging queues' invariant, and the read makes
them four. -/
theorem witness_StagingQueuesHoldAtMostFour :
    (let s := fetching.modAxis 1 fun x => { x with staging := [recOf 1 .mark, recOf 2 .mark, recOf 3 .mark] };
      s.StagingInBounds ∧ step { s with pending := [.fetchReadComplete (.data 5)] } = .next (after (.fetchReadComplete (.data 5)) s) ∧
        ((after (.fetchReadComplete (.data 5)) s).axis 1).staging.length = 4) := by
  refine ⟨⟨by decide, fun a ad h => ?_⟩, rfl, by decide⟩
  have h2 : (2 : Fin 5) = axisRing a := by injection h with h; injection h
  clear h
  revert h2; revert a; decide

/-- A device at work meets the hypotheses of the completion buffer's invariant: axis 0 in DWELL, axis 1 in WAIT_SYNC, axis 2 in RUN, axis 3 in
RAMP_DOWN with its stop request, a FILLED entry, and one on the port. -/
def dwellAxis : AxisBlock := { idleAxis with st := .dwell, active := some { segOf (.dwell 3 none) with entry := 7 } }
def buffered : State :=
  { ((((((put 0 dwellAxis (put 1 (heldDwell 5) (put 2 (runAxis moveA 32768 32768 4)
        (put 3 { idleAxis with st := .rampDown, stopReq := some pendingStop } online)))).setEntry 7
      (.reserved (.axisRecord 0))).setEntry 5 (.reserved (.heldSync 1))).setEntry 3 (.reserved (.axisRecord 2))).setEntry 23 (.reserved (.stopRequest 3))).setEntry 0
      (.filled (ctlReport online none 1 0x1B .ok 0 0 0 0))).setEntry 1 (.writing (ctlReport online none 2 0x1B .ok 0 0 0 0)) with
    fillQueue := [0], port := some (.report 1 0 0) }

theorem witness_FillQueueHoldsTheFilledEntries : buffered.BufferKept ∧
    step { buffered with pending := [.completionWriteComplete false] }
      = .next (after (.completionWriteComplete false) buffered) := by
  have active : ∀ a, (buffered.axis a).active.all fun g => buffered.entry g.entry = .reserved (.axisRecord a) := by decide
  have held : ∀ a, (buffered.axis a).held.all fun h => buffered.entry h.entry = .reserved (.heldSync a) := by decide
  have request : ∀ a, (buffered.axis a).stopReq.all fun q =>
      buffered.entry q.entry = .reserved (.stopRequest a) ∧ (buffered.axis a).st = .rampDown := by decide
  have filled : ∀ e, e ∈ buffered.fillQueue ↔ (match buffered.entry e with
      | .filled _ => true
      | _ => false) = true := by decide
  refine ⟨⟨by decide, fun e => ?_, fun _ a g h => ?_, fun _ a x h => ?_, fun _ a q h => ?_, fun _ e ad v h => ?_, fun _ => ?_,
    ?_, fun _ _ h => ?_, fun h => ?_, rfl⟩, rfl⟩
  · rw [filled e]; cases buffered.entry e <;> simp
  · simpa [h] using active a
  · simpa [h] using held a
  · simpa [h] using request a
  · have h1 : (1 : Fin 24) = e := by injection h with h; injection h
    exact h1 ▸ ⟨_, rfl⟩
  · decide
  · unfold AxisBlock.HeldInWaitSync; decide
  · cases h
  · cases h

theorem witness_GoStartsTheSetupReads :
    online.dev ≠ .offline ∧ State.reset.dev = .offline ∧ (State.reset.suaHi ++ State.reset.suaLo).toNat % 64 = 0 ∧
      ({ State.reset with suaLo := 63 }.suaHi ++ { State.reset with suaLo := 63 }.suaLo).toNat % 64 ≠ 0 ∧
    (let s := { starting 2 [0, 0] with port := none };
      s.dev = .starting ∧ s.port = none ∧ s.setupRead = some { next := 2, chunks := [0, 0] }) ∧
    (starting 2 [0, 0]).port = some (.setupRead 2 0) ∧ (2 : Fin 4) ≠ 3 ∧ online.port = none := by decide

theorem witness_CtlWriteIsJudgedWhole :
    (4#32).getLsbD 2 = true ∧ (1#32).getLsbD 2 = false ∧ (1#32).getLsbD 0 = true ∧ State.reset.dev = .offline ∧
      (2#32).getLsbD 2 = false ∧ (2#32).getLsbD 1 = true ∧ online.dev = .online ∧ (2#32).getLsbD 0 = false ∧
      { online with dev := .quiescing }.dev ≠ .offline ∧ { online with dev := .quiescing }.dev ≠ .online := by decide

theorem witness_HaltBeginsTheQuiesce :
    mixed.Ready ∧ (∃ b, (mixed.axis b).st.moving = true) ∧ (mixed.axis 0).st = .run ∧ (mixed.axis 1).st = .dwell ∧
      (mixed.axis 2).st = .halted ∧ halted.Ready ∧ (∀ b, (halted.axis b).st.moving = false) ∧ (halted.axis 1).st ≠ .off ∧
      State.reset.dev ≠ .online ∧ gathering.Ready ∧ (gathering.group 5).st = .gathering ∧ (gathering.axis 3).st = .waitSync ∧
      (gathering.axis 3).held = some { record := recOf 0x31 (.dwell 1 (some 5)), group := 5, entry := 5 } ∧
      (gathering.group 4).st ≠ .gathering ∧ buffered.BufferKept ∧
      (buffered.Ready ∧ (∃ b, (buffered.axis b).st.moving = true) ∧ (buffered.axis 0).st = .dwell ∧
        (buffered.axis 0).active = some { segOf (.dwell 3 none) with entry := 7 } ∧ (buffered.axis 1).st = .waitSync ∧
        (buffered.axis 1).held = some { record := recOf 0x31 (.dwell 1 (some 5)), group := 5, entry := 5 }) := by
  have h := witness_FillQueueHoldsTheFilledEntries.1
  unfold State.Ready
  refine ⟨?_, ?_, ?_, ?_, ?_, ?_, ?_, ?_, ?_, ?_, ?_, ?_, ?_, ?_, h, ?_⟩ <;> decide

theorem witness_QuiesceEndEntersOffline :
    (let s := { online with dev := .quiescing };
      s.dev = .quiescing ∧ (∀ a, (s.axis a).st = .off) ∧ (∀ e, s.entry e = .free) ∧ s.writer.inFlight = none ∧
      s.interp = .waiting ∧ (∀ r, (s.fetcher r).inFlight = none ∧ (s.fetcher r).mirrorPending = false) ∧ s.port = none) ∧
    online.dev ≠ .quiescing := by decide

theorem witness_BusErrorsFailTheDevice :
    (let s := { mixed.modFetcher 0 (fun f => { f with inFlight := some { slot := 0, cancelled := false } }) with
        port := some (.fetchRead 0 0) };
      s.dev = .online ∧ s.port = some (.fetchRead 0 0) ∧
        (s.fetcher 0).inFlight = some { slot := 0, cancelled := false } ∧ (∃ b, (s.axis b).st.moving = true) ∧
        exec (.fetchReadComplete .busError) s = .next (after (.fetchReadComplete .busError) s)) ∧
    (let s := { halted with dev := .quiescing, port := some (.mirror 4 0 0) };
      s.dev = .quiescing ∧ s.port = some (.mirror 4 0 0) ∧ (∀ b, (s.axis b).st.moving = false) ∧
        exec (.mirrorWriteComplete true) s = .next (after (.mirrorWriteComplete true) s)) ∧
    (writing.dev = .online ∧ writing.port = some (.report 3 0 0) ∧
      exec (.completionWriteComplete true) writing = .next (after (.completionWriteComplete true) writing)) := by
  refine ⟨⟨?_, ?_, ?_, ?_, rfl⟩, ⟨?_, ?_, ?_, rfl⟩, ?_, ?_, rfl⟩ <;> decide

theorem witness_TailpostSetsTheTail :
    (4#3).toNat < 5 ∧ online.dev = .online ∧ (7#16).toNat < (online.fetcher 4).size ∧ 5 ≤ (5#3).toNat ∧
      State.reset.dev ≠ .online ∧ (online.fetcher 4).size ≤ (8#16).toNat := by decide

theorem witness_CheadReleasesSlots :
    indicesIn 8 0 7 ∧ indicesIn 0 0 0 ∧
      (let w : Writer := { online.writer with tail := 7 };
       let ahead (n : Nat) : Int := ((n : Int) - w.hostHead) % w.size
       online.dev = .online ∧ (7#16).toNat < w.size ∧ ahead (7#16).toNat ≤ ahead w.tail ∧ ¬ (8#16).toNat < w.size) ∧
      State.reset.writer.size = 0 := by unfold indicesIn; decide

theorem witness_ModeratorWritesAndHoldoff :
    ({ online with holdoff := some 0 }.holdoff ≠ none ∧ online.holdoff = none) ∧
    (let s := { online with writeCount := 4, imod := { Imod.reset with threshold := 5 } };
      (4#8) ≠ s.imod.threshold ∧ (4#8).toNat ≤ s.writeCount) ∧
    (let s := { online with writeCount := 4, imod := { Imod.reset with threshold := 6 } };
      ¬ ((5#8) ≠ s.imod.threshold ∧ (5#8).toNat ≤ s.writeCount) ∧ (0#16) = s.imod.holdoff) ∧
    (let s := { online with writeCount := 1, imod := { Imod.reset with threshold := 5, holdoff := 200 }, holdoff := some 9 };
      ¬ ((5#8) ≠ s.imod.threshold ∧ (5#8).toNat ≤ s.writeCount) ∧ (0#16) ≠ s.imod.holdoff ∧ (1#16) ≠ s.imod.holdoff ∧
      s.holdoff ≠ none ∧ 0 < s.writeCount ∧ s.cplFlag = false) ∧
    ((1#16) ≠ online.imod.holdoff ∧ online.holdoff = none ∧ online.writeCount = 0) := by decide

theorem witness_RegistersWriteAndReadAsTabled :
    { online with failure := some { access := .completionWrite, ring := 5 } }.failure
      = some { access := .completionWrite, ring := 5 } ∧ online.failure = none := by decide

theorem witness_PortGoesToWriterThenRoundRobin :
    (let s := { online.setEntry 3 (.filled (ctlReport online none 1 0x1B .ok 0 0 0 0)) with fillQueue := [3] };
      s.port = none ∧ s.dev = .online ∧ s.fillQueue = 3 :: [] ∧ s.writer.inFlight = none ∧
        s.writer.unreleased + 1 < s.writer.size ∧ s.entry 3 = .filled (ctlReport online none 1 0x1B .ok 0 0 0 0)) ∧
    (posted.port = none ∧ posted.dev = .online ∧ ¬ posted.fillQueue ≠ [] ∧
      fetcherRequests posted (posted.rr + 1 + 0) = true ∧ (posted.fetcher (posted.rr + 1 + 0)).mirrorPending = false) ∧
    (let s := online.modFetcher 0 fun f => { f with mirrorPending := true };
      fetcherRequests s (s.rr + 1 + 0) = true ∧ (s.fetcher (s.rr + 1 + 0)).mirrorPending = true) ∧
    (∀ r, fetcherRequests online r = false) ∧ fetching.port ≠ none := by decide

theorem witness_SetupBlockIsJudgedInRingOrder :
    (let c := chunkOf 0x3000 8 0x3800 64;
      (starting3 c).port = some (.setupRead 3 0) ∧
        (starting3 c).setupRead = some { next := 3, chunks := [chunkOf 0 8 0x2000 1024, c, chunkOf 0x4000 8 0x5000 8] } ∧
        judgeSetup [chunkOf 0 8 0x2000 1024, c, chunkOf 0x4000 8 0x5000 8, 0] allRings = .none) ∧
    (let c := chunkOf 0x3000 8 0x3810 12;
      judgeSetup [chunkOf 0 8 0x2000 1024, c, chunkOf 0x4000 8 0x5000 8, 0] allRings = .badSize) := by decide

theorem witness_AxisReadsAreTakenOrHaltTheAxis :
    fetching.Ready ∧ fetching.port = some (.fetchRead (axisRing 1) 0) ∧
      (fetching.fetcher (axisRing 1)).inFlight = some { slot := 0, cancelled := false } ∧
      (fetching.fetcher (axisRing 1)).head ≠ (fetching.fetcher (axisRing 1)).tail ∧ (fetching.axis 1).st = .idle ∧
      (fetching.modFetcher 2 Fetcher.cancel).port = some (.fetchRead (axisRing 1) 0) ∧
      ((fetching.modFetcher 2 Fetcher.cancel).fetcher (axisRing 1)).inFlight = some { slot := 0, cancelled := true } ∧
      { online with port := some (.fetchMirror 2 0 1) }.port = some (.fetchMirror 2 0 1) ∧
      { online with port := some (.mirror 2 0 1) }.port = some (.mirror 2 0 1) ∧ online.port = none ∧
      (gatheringPair.Ready ∧ gatheringPair.port = some (.fetchRead (axisRing 1) 0) ∧
        (gatheringPair.fetcher (axisRing 1)).inFlight = some { slot := 0, cancelled := false } ∧ gatheringPair.Gathers 1 heldOne) := by
  refine ⟨⟨rfl, rfl⟩, rfl, ?_, ?_, ?_, rfl, ?_, rfl, rfl, rfl, ⟨rfl, rfl⟩, rfl, ?_, gatheringPair_gathers⟩ <;> decide

/-- The control ring's read of a record in slot 7 of 8, taken, cancelled, and ending with a record in hand. -/
def fetchingControl (c : Bool) (i : Interp) : State :=
  { online.modFetcher 0 (fun f => { f with head := 7, tail := 2, inFlight := some { slot := 7, cancelled := c } }) with
    port := some (.fetchRead 0 0), interp := i }

theorem witness_ControlReadReachesTheInterpreter :
    (let s := fetchingControl false .waiting;
      s.port = some (.fetchRead 0 0) ∧ (s.fetcher 0).inFlight = some { slot := 7, cancelled := false } ∧ s.dev = .online ∧
        s.interp = .waiting ∧ (s.fetcher 0).head ≠ (s.fetcher 0).tail ∧ { s with dev := .quiescing }.dev = .quiescing) ∧
    ((fetchingControl true .waiting).fetcher 0).inFlight = some { slot := 7, cancelled := true } ∧
    (fetchingControl false (.holding { tag := 1, body := .nop })).interp ≠ .waiting ∧
    (readCtlRecord 0x90000001B#256).body = .nop ∧ ((after (.fetchReadComplete (.data 0x90000001B#256))
      (fetchingControl false .waiting)).fetcher 0).head = 0 := by decide

theorem witness_ReportWriteIsCounted :
    writing.Ready ∧ writing.port = some (.report 3 0 0) ∧ writing.cplFlag = false ∧ writing.imod.threshold.toNat ≤ 3 + 1 ∧
      { writing with cplFlag := true }.cplFlag = true ∧
      (let s := { writing with writeCount := 0, imod := { Imod.reset with threshold := 4, holdoff := 200 } };
        s.Ready ∧ s.cplFlag = false ∧ 0 + 1 < s.imod.threshold.toNat ∧ s.writeCount = 0 ∧ s.imod.holdoff ≠ 0) := by
  unfold State.Ready
  decide

/-- Records at the edges of the checks: a bit of byte 23 of a MOVE, a start rate with its bit clear, rate deltas of 65,536 and 65,537, a
DWELL of 0, a WAIT of source 5 and of source 6, a SETPOS with no position, a MARK as it should be and one with a presence bit. -/
def moveOf (delta : Nat) (more : Block32) : Block32 := 0x0001#256 ||| BitVec.ofNat 256 (2 ^ 64 + delta * 2 ^ 128) ||| more
theorem witness_BadRecordsAreMarkedInvalid :
    ((moveOf 65536 0).extractLsb' 128 32).toInt = 65536 ∧ 65536 < ((moveOf 65537 0).extractLsb' 128 32).toInt ∧
      (moveOf 0 (1#256 <<< 184)).extractLsb' 184 72 ≠ 0 ∧
      (¬ (moveOf 0 (1#256 <<< 96)).getLsbD 24 = true ∧ (moveOf 0 (1#256 <<< 96)).extractLsb' 96 32 ≠ 0) ∧
      ((0x02#256).extractLsb' 64 24).toNat = 0 ∧ ((5#256 <<< 64).extractLsb' 64 8).toNat = 5 ∧
      5 < ((6#256 <<< 64).extractLsb' 64 8).toNat ∧ (¬ (4#256).getLsbD 28 = true ∧ ¬ (4#256).getLsbD 29 = true) ∧
      (0x01000005#256).extractLsb' 24 8 ≠ 0 ∧
    ((moveOf 65536 0).extractLsb' 0 5 = 1#5 ∧ (readAxisRecord (moveOf 65536 0)).body ≠ .invalid 1) ∧
    ((0x1100000105#256).extractLsb' 5 3 = 0 ∧ (0x1100000105#256).extractLsb' 9 15 = 0 ∧
      (0x1100000105#256).extractLsb' 24 8 = 0 ∧ (0x1100000105#256).extractLsb' 64 192 = 0) ∧
    (3 < ((0x00040012#256).extractLsb' 16 8).toNat ∧ ((0x00030012#256).extractLsb' 16 8).toNat = 3 ∧
      (0x1000#256).extractLsb' 8 8 ≠ 0 ∧ 0x1B < ((0x1C#256).extractLsb' 0 5).toNat ∧
      ((0x80000019#256 ||| 1#256 <<< 64).getLsbD 31 = true ∧ ((0x80000019#256 ||| 1#256 <<< 64).extractLsb' 64 8).toNat = 1) ∧
      (∀ i j, i < j → j < 4 → ¬ ((4#256 <<< 64).getLsbD (64 + i) = true ∧ (4#256 <<< 64).getLsbD (64 + j) = true)) ∧
      (0x90000001B#256).extractLsb' 64 192 = 0) := by
  refine ⟨?_, ?_, ?_, ?_, ?_, ?_, ?_, ?_, ?_, ?_, ?_, ?_, ?_, ?_, ?_, ?_, ?_, ?_⟩ <;> try decide
  intro i j h k
  have hj : j = 1 ∨ j = 2 ∨ j = 3 := by omega
  have hi : i = 0 ∨ i = 1 ∨ i = 2 := by omega
  rcases hi with rfl | rfl | rfl <;> rcases hj with rfl | rfl | rfl <;> first | omega | decide

theorem witness_AxisRecordsReadBack :
    (AxisBody.move
      { dir := .reverse, steps := (0xFFFFFF#24).toNat, startRate := some (262144#32).toNat
        delta := (0xFFFF0000#32).toInt, exit := .continue, sync := some 7 }).inRange = true ∧
      (0xFFFFFF#24) ≠ 0 ∧ some (1#24) ≠ some 0 ∧ (some (0#32)).isSome = true := by decide

theorem witness_ControlRecordsReadBack :
    (1 ≤ (7#8).toNat ∧ (7#8).toNat ≤ 7 ∧ 2 ≤ (15#8).toNat ∧ (15#8).toNat ≤ 15 ∧ 1 ≤ (1000#16).toNat ∧ (1000#16).toNat ≤ 1000) ∧
      (1 ≤ (262144#32).toNat ∧ (262144#32).toNat ≤ 262144) ∧ 2 ≤ setSize 0b1001 ∧ some (0xFFFF#16) ≠ some 0 ∧
      some (255#8) ≠ some 0 := by decide

theorem witness_ExpiryChecksTheFollowingError :
    (let x := { runAxis moveA 32768 0 4 with acc := -1001, cfg := { cfg28 with countsPerStep := 4 } };
      (put 2 x online).Ready ∧ (∀ g, ((put 2 x online).group g).st ≠ .gathering) ∧ x.st = .run ∧ x.held = none ∧
        x.cfg.countsPerStep ≠ 0 ∧ x.cfg.followWindow < x.acc.natAbs) ∧
    (halted.Ready ∧ (∀ g, (halted.group g).st ≠ .gathering) ∧ (halted.axis 1).st = .halted ∧
      (halted.axis 1).cfg.countsPerStep = 0) ∧
    ({ haltedAxis with cfg := { cfg28 with countsPerStep := 4 } }.cfg.countsPerStep ≠ 0) ∧
    (gatheringPair.Ready ∧ (∀ g, g ≠ 5 → (gatheringPair.group g).st ≠ .gathering) ∧ gatheringPair.Gathers 1 heldOne ∧
      (gatheringPair.axis 1).cfg.countsPerStep ≠ 0 ∧
      (gatheringPair.axis 1).cfg.followWindow < (gatheringPair.axis 1).acc.natAbs) := by
  refine ⟨?_, ?_, ?_, ⟨rfl, rfl⟩, ?_, gatheringPair_gathers, ?_, ?_⟩ <;> (try unfold State.Ready) <;> decide

theorem witness_RunExpiryComputesThePeriod :
    running.Ready ∧ (∀ g, (running.group g).st ≠ .gathering) ∧ (running.axis 2).st = .run ∧
      (running.axis 2).active = some (segOf (.move moveA)) ∧ 0 < (running.axis 2).remaining ∧
      (running.axis 2).firstMark = false ∧ (running.axis 2).cfg.countsPerStep = 0 := by
  unfold State.Ready
  decide

theorem witness_MoveEndsAtRest :
    ending.Ready ∧ (∀ g, (ending.group g).st ≠ .gathering) ∧ (ending.axis 2).st = .run ∧
      (ending.axis 2).active = some (segOf (.move moveB)) ∧ moveB.exit = .rest ∧ (ending.axis 2).remaining = 0 ∧
      (ending.axis 2).staging = [] ∧ (ending.axis 2).held = none ∧ (ending.axis 2).cfg.countsPerStep = 0 ∧
      (ending.axis 2).rate ≤ (ending.axis 2).cfg.jumpLimit ∧ (segOf (.move moveB)).record.report = true ∧
      (runAxis moveB 50001 0 0).cfg.jumpLimit < (runAxis moveB 50001 0 0).rate ∧ (ending.axis 2).stopReq = none ∧
      (segOf (.move moveB)).entry.val < 16 ∧
      { (recOf 1 (.move moveB)) with report := false }.report = false := by
  unfold State.Ready
  decide

/-- Axis 2 after expiry E3 of Table 2-5, on MOVE A whose steps are all computed, with records staged behind it; and the same with its
entry the only one of the pool that its end can free. -/
def joining (rep : Bool) (l : List AxisRecord) : State :=
  (put 2 { runAxis moveA 65536 0 0 with
      staging := l, active := some { segOf (.move moveA) with record := { recOf 0xA0 (.move moveA) with report := rep } } }
    online).setEntry 3 (.reserved (.axisRecord 2))

theorem witness_ContinueJoinTakesOverOrHalts :
    (let s := joining true [{ recOf 1 .mark with report := false }, recOf 0xB0 (.move moveB)];
      s.Ready ∧ (∀ g, (s.group g).st ≠ .gathering) ∧ (s.axis 2).st = .run ∧ moveA.exit = .continue ∧ (s.axis 2).remaining = 0 ∧
        (s.axis 2).dir = moveA.dir ∧ (s.axis 2).held = none ∧ (s.axis 2).stopReq = none ∧
        (s.axis 2).active = some (segOf (.move moveA)) ∧ (segOf (.move moveA)).record.report = true ∧ s.entry 3 ≠ .free ∧
        s.FreeGeneral 0 ∧ (s.axis 2).cfg.countsPerStep = 0 ∧
        (s.axis 2).staging = [{ recOf 1 .mark with report := false }] ++ recOf 0xB0 (.move moveB) :: [] ∧
        moveB.startRate = none ∧ moveB.sync = none ∧ moveB.dir = moveA.dir) ∧
    (let s := joining true [recOf 1 .mark, recOf 2 .mark, recOf 0xB0 (.move moveB)];
      (s.axis 2).staging = [recOf 1 .mark, recOf 2 .mark] ++ recOf 0xB0 (.move moveB) :: [] ∧ [(0 : Fin 24), 1, 15].Nodup ∧
        (∀ e ∈ [(0 : Fin 24), 1, 15], s.FreeGeneral e ∨ e = 3 ∧ (segOf (.move moveA)).record.report = false) ∧
        ([recOf 1 .mark, recOf 2 .mark].filter AxisRecord.report).length < [(0 : Fin 24), 1, 15].length) ∧
    (let s := joining false [recOf 0xB0 (.move moveB)];
      s.FreeGeneral 0 ∧ ∀ e ∈ [(3 : Fin 24)], s.FreeGeneral e ∨ e = 3 ∧ { recOf 0xA0 (.move moveA) with report := false }.report = false) ∧
    (let s := fullPool (joining false [recOf 0xB0 (.move moveB)]);
      s.Ready ∧ (∀ e, ¬ s.FreeGeneral e) ∧ s.entry 3 ≠ .free ∧
        (s.axis 2).staging = recOf 0xB0 (.move moveB) :: [] ∧ (recOf 0xA0 (.move moveA)).report = true) ∧
    ((joining true []).axis 2).staging = [] ∧ ((joining true [recOf 1 .mark]).axis 2).staging = [recOf 1 .mark] ∧
    ({ moveB with startRate := some 15 }.startRate = some 15 ∧ ¬ cfg28.creepRate ≤ 15) ∧
    { moveB with dir := .reverse }.dir ≠ moveA.dir ∧
    (cfg28.creepRate ≤ 15535 ∧ 15535 ≤ cfg28.maxRate ∧ cfg28.jumpLimit < ((15535 : Int) - (65536 : Nat)).natAbs) := by
  unfold State.Ready State.FreeGeneral
  refine ⟨?_, ?_, ?_, ?_⟩ <;> decide

theorem witness_RampExpirySubtracts :
    (ramping 20001 0).Ready ∧ (∀ g, ((ramping 20001 0).group g).st ≠ .gathering) ∧ ((ramping 20001 0).axis 3).st = .rampDown ∧
      ((ramping 20001 0).axis 3).active = some (segOf (.move moveA)) ∧ ((ramping 20001 0).axis 3).held = none ∧
      ((ramping 20001 0).axis 3).cfg.countsPerStep = 0 ∧ ((ramping 20001 0).axis 3).decel < ((ramping 20001 0).axis 3).rate ∧
      ((ramping 20000 0).axis 3).rate ≤ ((ramping 20000 0).axis 3).decel ∧
      ((ramping 20000 0).axis 3).stopReq = some pendingStop ∧
      (let s := { ramping 20000 0 with dev := .quiescing };
        s.dev = .quiescing ∧ (s.axis 3).stopReq = some pendingStop ∧ ∀ b, b ≠ 3 → (s.axis b).st.moving = false) ∧
      (∀ d, d = .quiescing ∨ d = .failed →
        let s := { (ramping 20000 0).modAxis 3 fun x => { x with stopReq := none } with dev := d };
        s.dev = d ∧ s.interp = .waiting ∧ (∀ g, (s.group g).st ≠ .gathering) ∧ (s.axis 3).st = .rampDown ∧
          (s.axis 3).active = some (segOf (.move moveA)) ∧ (s.axis 3).held = none ∧ (s.axis 3).cfg.countsPerStep = 0 ∧
          (s.axis 3).rate ≤ (s.axis 3).decel ∧ (s.axis 3).stopReq = none ∧ (∀ b, b ≠ 3 → (s.axis b).st.moving = false) ∧
          (let t := put 2 { runAxis moveA 32768 0 4 with st := .rampDown } s;
            t.dev = d ∧ (t.axis 3).st = .rampDown ∧ ¬ ∀ b, b ≠ 3 → (t.axis b).st.moving = false)) := by
  unfold State.Ready
  refine ⟨by decide, by decide, by decide, by decide, by decide, by decide, by decide, by decide, by decide, by decide, fun d h => ?_⟩
  rcases h with rfl | rfl <;> decide

theorem witness_DwellAndWaitCountExpiries :
    dwelling.Ready ∧ (∀ g, (dwelling.group g).st ≠ .gathering) ∧ (dwelling.axis 1).active = some (segOf (.dwell 3 none)) ∧
      (dwelling.axis 1).staging = [] ∧ (segOf (.dwell 3 none)).record.report = true ∧
      { recOf 1 (.dwell 3 none) with report := false }.report = false ∧
      (dwelling.axis 1).cfg.countsPerStep = 0 ∧ (dwelling.axis 1).st = .dwell ∧
      (segOf (.dwell 3 none)).expiries + 1 < 3 ∧ { segOf (.dwell 3 none) with expiries := 2 }.expiries + 1 = 3 ∧
      waiting.Ready ∧ (waiting.axis 1).st = .waitEvent ∧ (waiting.axis 1).active = some (segOf (.wait waitTrg)) ∧
      waitTrg.timeout = some 3 := by
  unfold State.Ready
  decide

theorem witness_MoveIsActivatedFromRest :
    (staged (.move moveA)).Ready ∧ (∀ g, ((staged (.move moveA)).group g).st ≠ .gathering) ∧
      ((staged (.move moveA)).axis 2).st = .idle ∧ ((staged (.move moveA)).axis 2).held = none ∧
      ((staged (.move moveA)).axis 2).stopReq = none ∧
      ((staged (.move moveA)).axis 2).staging = recOf 0xA0 (.move moveA) :: [] ∧ moveA.sync = none ∧
      moveA.startRate = some 32768 ∧ cfg28.creepRate ≤ 32768 ∧ 32768 ≤ cfg28.maxRate ∧ cfg28.countsPerStep = 0 ∧
      (staged (.move moveA)).FreeGeneral 0 ∧ 32768 ≤ cfg28.jumpLimit ∧
      ((staged (.move moveA)).line (.limP 2)).level = false ∧ cfg28.limitHigh = true ∧
      (((staged (.move moveA)).setLine (.limP 2) { level := true, run := 0, sampled := true }).line (.limP 2)).level = true ∧
      cfg28.limitsOn = true := by
  unfold State.Ready State.FreeGeneral
  decide

theorem witness_RecordsAreActivatedFromRest :
    (∀ b, (staged b).Ready ∧ (∀ g, ((staged b).group g).st ≠ .gathering) ∧ ((staged b).axis 2).st = .idle ∧
      ((staged b).axis 2).cfg.countsPerStep = 0 ∧ ((staged b).axis 2).staging = recOf 0xA0 b :: [] ∧ (staged b).FreeGeneral 0) ∧
    (AxisBody.mark).sync? = none ∧ waitTrg.policy = .fresh ∧ { waitTrg with policy := .latched }.policy = .latched ∧
    (((staged .mark).axis 2).latch (.trg 2)).flag = false ∧
    ((idleAxis.setLatch (.trg 2) { flag := true, overrun := true, time := 5 }).latch (.trg 2)).flag = true ∧
    (∀ e, ¬ (fullPool (staged .mark)).FreeGeneral e) ∧ (∀ e, ¬ (fullPool (staged (.move moveA))).FreeGeneral e) ∧
    moveA.sync = none ∧ moveA.startRate = some 32768 ∧ cfg28.creepRate ≤ 32768 ∧ 32768 ≤ cfg28.maxRate ∧ (idleAxis.staging = []) := by
  unfold State.Ready State.FreeGeneral
  refine ⟨fun b => ?_, ?_⟩
  · refine ⟨⟨rfl, rfl⟩, ?_, rfl, rfl, rfl, by decide, rfl⟩
    intro g; revert g; exact (by decide : ∀ g, ((staged .mark).group g).st ≠ .gathering)
  · decide

theorem witness_InvalidFrontRecordHalts :
    (staged (.invalid 0)).Ready ∧ (∀ g, ((staged (.invalid 0)).group g).st ≠ .gathering) ∧
      ((staged (.invalid 0)).axis 2).st = .idle ∧ ((staged (.invalid 0)).axis 2).active = none ∧
      ((staged (.invalid 0)).axis 2).held = none ∧ ((staged (.invalid 0)).axis 2).stopReq = none ∧
      ((staged (.invalid 0)).axis 2).staging = recOf 0xA0 (.invalid 0) :: [] ∧
      ((staged (.invalid 0)).axis 2).cfg.countsPerStep = 0 ∧
      (let m := { moveS with startRate := some 15 }; (staged (.move m)).Ready ∧ ((staged (.move m)).axis 2).st = .idle ∧
        ((staged (.move m)).axis 2).staging = recOf 0xA0 (.move m) :: [] ∧ 15 < ((staged (.move m)).axis 2).cfg.creepRate) ∧
      ((staged (.invalid 0)).axis 2).cfg.maxRate < 131073 := by
  unfold State.Ready
  decide

/-- Axis 1 IDLE with a record tagged with group 5 at the front, the group in the state and with the members given. -/
def tagged (st : GroupState) (m arr : AxisSet) : State :=
  (put 1 { idleAxis with staging := [recOf 0x1B (.move moveS)] } online).modGroup 5
    fun _ => { Group.reset with st := st, members := m, arrived := arr }

theorem witness_TaggedFrontRecordIsJudged :
    (let s := tagged .gathering 0b1110 0b1000;
      s.Ready ∧ (∀ k, k ≠ 5 → (s.group k).st ≠ .gathering) ∧ (s.group 5).timeout = none ∧ (s.axis 1).st = .idle ∧
        (s.axis 1).active = none ∧ (s.axis 1).held = none ∧ (s.axis 1).stopReq = none ∧
        (s.axis 1).staging = recOf 0x1B (.move moveS) :: [] ∧ moveS.sync = some 5 ∧ moveS.startRate = some 16 ∧
        (s.axis 1).cfg.creepRate ≤ 16 ∧ 16 ≤ (s.axis 1).cfg.maxRate ∧ (s.axis 1).cfg.countsPerStep = 0 ∧
        setHas (s.group 5).members 1 = true ∧ setInsert (s.group 5).arrived 1 ≠ (s.group 5).members ∧ s.FreeGeneral 0 ∧
        (∀ e, ¬ (fullPool s).FreeGeneral e)) ∧
    ((tagged .free 0 0).group 5).st = .free ∧ setHas ((tagged .armed 0b1100 0).group 5).members 1 = false ∧
    ((tagged .armed 0b0110 0).group 5).st = .armed ∧ ((tagged .broken 0b0110 0).group 5).st = .broken := by
  unfold State.Ready State.FreeGeneral
  decide

theorem witness_ArrivalReleasesTheGroup :
    gathering.Ready ∧ (∀ k, k ≠ 5 → (gathering.group k).st ≠ .gathering) ∧ (gathering.axis 1).st = .idle ∧
      (gathering.axis 1).held = none ∧ (gathering.axis 1).staging = recOf 0x1B (.move moveS) :: [] ∧
      moveS.sync = some 5 ∧ moveS.startRate = some 16 ∧ (gathering.axis 1).cfg.creepRate ≤ 16 ∧
      16 ≤ (gathering.axis 1).cfg.maxRate ∧ 16 ≤ (gathering.axis 1).cfg.jumpLimit ∧ (gathering.axis 1).cfg.limitsOn = false ∧
      (gathering.axis 1).cfg.countsPerStep = 0 ∧ gathering.FreeGeneral 0 ∧ (gathering.group 5).st = .gathering ∧
      setHas (gathering.group 5).arrived 1 = false ∧
      setInsert (gathering.group 5).arrived 1 = (gathering.group 5).members ∧
      (∀ b, setHas (gathering.group 5).arrived b = true →
        (gathering.axis b).held = some { record := recOf 0x31 (.dwell 1 (some 5)), group := 5, entry := 5 } ∧
          (gathering.axis b).stopReq = none ∧ (5 : Fin 24).val < 16) ∧
      (gathering.axis 1).stopReq = none ∧
      (let s := gathering.modAxis 1 fun x => { x with cfg := { x.cfg with jumpLimit := 15 } };
        (s.axis 1).cfg.jumpLimit < 16 ∧ ((after (.updatePeriodExpiry 1) s).axis 1).cause = some .rateJump ∧
          ((after (.updatePeriodExpiry 1) s).axis 3).st = .dwell) := by
  unfold State.Ready State.FreeGeneral
  decide

theorem witness_GroupBreaksAtItsTimeout :
    gatheringHeld.Ready ∧ (∀ k, k ≠ 5 → (gatheringHeld.group k).st ≠ .gathering) ∧
      (gatheringHeld.group 5).st = .gathering ∧ (gatheringHeld.group 5).timeout = some 3 ∧
      setHas (gatheringHeld.group 5).members 0 = true ∧
      (∀ b, b < 0 → setHas (gatheringHeld.group 5).members b = false) ∧ (gatheringHeld.axis 0).st = .waitSync ∧
      (gatheringHeld.axis 0).cfg.countsPerStep = 0 ∧
      (∀ b, setHas (gatheringHeld.group 5).arrived b = true → (gatheringHeld.axis b).held ≠ none) ∧
      (gatheringHeld.group 5).count + 1 = 3 ∧
      ((gatheringHeld.modGroup 5 fun y => { y with count := 1 }).group 5).count + 1 < 3 := by
  unfold State.Ready
  decide

theorem witness_PulsesCountAsTheyBegin :
    (let x := { runAxis moveA 32768 0 4 with schedule := [0, 9] };
      x.schedule = 0 :: [9] ∧ x.active = some (segOf (.move moveA)) ∧ (segOf (.move moveA)).record.body = .move moveA) ∧
    (running.axis 2).schedule = [] := by decide

theorem witness_LimitEdgeHaltsTowardTheLimit :
    running.Ready ∧ (running.axis 2).cfg.limitsOn = true ∧ true = (running.axis 2).cfg.limitHigh ∧
      (running.axis 2).st = .run ∧ (running.axis 2).dir = .forward ∧ ¬ (running.axis 2).dir = .reverse := by
  unfold State.Ready
  decide

theorem witness_QuadratureCountsAndErrors :
    (let succ : Bool × Bool → Bool × Bool := fun p => (! p.2, p.1);
      (true, (online.line (.encB 0)).level) = succ ((online.axis 0).quadA, (online.axis 0).quadB) ∧
      ((online.axis 0).quadA, (online.axis 0).quadB) = succ ((online.line (.encA 0)).level, true)) ∧
    (online.dev ≠ .quiescing ∧ online.dev ≠ .failed ∧ online.interp = .waiting ∧ (online.axis 0).st = .off) ∧
    (let x := { runAxis moveA 32768 0 4 with cfg := { cfg28 with countsPerStep := 64 } };
      x.cfg.countsPerStep ≠ 0 ∧ x.st ≠ .off ∧ x.st ≠ .halted ∧ x.st ≠ .waitSync) ∧
    (gatheringPair.dev ≠ .quiescing ∧ gatheringPair.dev ≠ .failed ∧ gatheringPair.interp = .waiting ∧
      (gatheringPair.axis 1).cfg.countsPerStep ≠ 0 ∧ gatheringPair.Gathers 1 heldOne) := by
  refine ⟨?_, ?_, ?_, ?_, ?_, ?_, ?_, gatheringPair_gathers⟩ <;> decide

theorem witness_EventSetsTheLatchesItFeeds :
    running.dev ≠ .quiescing ∧ running.dev ≠ .failed ∧ running.interp = .waiting ∧
      (∀ a, (running.axis a).st ≠ .waitEvent ∧ (running.axis a).arm.armed = false) := by decide

theorem witness_EventCompletesTheWait :
    waiting.Ready ∧ (waiting.axis 1).st = .waitEvent ∧ (waiting.axis 1).active = some (segOf (.wait waitTrg)) ∧
      waitTrg.src = .trg 2 ∧ (segOf (.wait waitTrg)).record.report = true ∧ (waiting.axis 1).cfg.indexSrc = .own ∧
      (waiting.axis 1).cfg.homeSrc = .own ∧ ((waiting.axis 1).latch (.trg 2)).flag = false ∧
      (∀ b, b ≠ 1 → (waiting.axis b).st ≠ .waitEvent) ∧ (∀ b, (waiting.axis b).arm.armed = false) := by
  unfold State.Ready
  decide

/-- Axis 2 armed on TRG3 for one more capture. -/
def armedTrg : State :=
  put 2 { idleAxis with arm := { CaptureArm.reset with armed := true, source := .trg 3, remaining := some 1, tag := 0x70 } }
    online

theorem witness_ArmedEventIsCapturedOrMissed :
    armedTrg.Ready ∧ (armedTrg.axis 2).arm.armed = true ∧ (armedTrg.axis 2).arm.source = .trg 3 ∧
      (armedTrg.axis 2).cfg.indexSrc = .own ∧ (armedTrg.axis 2).cfg.homeSrc = .own ∧
      (∀ b, b ≠ 2 → (armedTrg.axis b).arm.armed = false) ∧ (∀ b, (armedTrg.axis b).st ≠ .waitEvent) ∧
      armedTrg.FreeGeneral 15 ∧ (fullPool armedTrg).Ready ∧ (∀ e, ¬ (fullPool armedTrg).FreeGeneral e) := by
  unfold State.Ready State.FreeGeneral
  decide

/-- Every line has taken its first sample, and the lines given are one sample short of qualifying high. -/
def sampled (l : List Line) : State :=
  { online with lines := Vector.ofFn fun i =>
      { level := false, run := if (l.map lineIx).contains i then 2 else 0, sampled := true } }

theorem witness_SampleQualifiesEachLine :
    online.interp = .waiting ∧ (online.line (.home 1)).sampled = false ∧
      (let l : LineState := { level := false, run := 3, sampled := true };
        l.sampled = true ∧ true ≠ l.level ∧ l.run + 1 = online.inputs.slowDepth ∧ l.run + 1 ≠ 5 ∧ false = l.level) ∧
      online.dev ≠ .quiescing ∧ online.dev ≠ .failed ∧
      (∀ a : Axis, ((sampled []).line (.encA a)).sampled = true) ∧ (sampled []).Ready ∧
      ((sampled [.encA 1]).line (.encA 1)).run + 1 = online.inputs.fastDepth ∧
      ((sampled [.encA 1]).line (.encB 1)).run + 1 ≠ online.inputs.fastDepth ∧
      ((sampled [.encA 1, .encB 1]).line (.encB 1)).run + 1 = online.inputs.fastDepth := by
  unfold State.Ready
  decide

theorem witness_ConfigurationReplacesOrRefuses :
    (online.Ready ∧ online.FreeGeneral 0 ∧ (running.axis 2).st ≠ .off ∧ (online.axis 0).st = .off ∧
      (10 ≤ AxisConfig.reset.updatePeriod ∧ AxisConfig.reset.updatePeriod ≤ 2000 ∧
        AxisConfig.reset.creepRate ≤ AxisConfig.reset.maxRate) ∧
      firstFailing AxisConfig.reset = none ∧
      firstFailing { AxisConfig.reset with creepRate := 262144, maxRate := 262143 } = some 10 ∧
      firstFailing { AxisConfig.reset with updatePeriod := 2001 } = some 1) ∧
    (online.Ready ∧ online.FreeGeneral 0 ∧ (running.axis 2).st ≠ .off ∧ (∀ a, (online.axis a).st = .off) ∧
      (1 ≤ InputsConfig.reset.fastDepth ∧ InputsConfig.reset.slowInterval ≤ 1000 ∧ 2 ≤ InputsConfig.reset.slowDepth) ∧
      ¬ (2 ≤ { InputsConfig.reset with slowDepth := 1 }.slowDepth) ∧ 11 ≠ online.inputs.slowInterval) := by
  unfold State.Ready State.FreeGeneral
  decide

theorem witness_EnableAndDisableAxis :
    (online.Ready ∧ online.FreeGeneral 0 ∧ (online.axis 0).st = .off ∧ (running.axis 2).st ≠ .off ∧
      (let s := { online with dev := .quiescing };
        s.interp = .waiting ∧ s.FreeGeneral 0 ∧ s.dev = .quiescing ∧ ∀ b, (s.axis b).st = .off)) ∧
    (halted.Ready ∧ halted.FreeGeneral 0 ∧ (halted.axis 1).st = .halted ∧ halted.entry (faultSlot 1) = .free ∧
      (halted.setEntry (faultSlot 1) (.reserved .control)).entry (faultSlot 1) ≠ .free ∧ idleAxis.st = .idle ∧
      (running.axis 2).st ≠ .idle ∧ (running.axis 2).st ≠ .halted) := by
  unfold State.Ready State.FreeGeneral
  decide

theorem witness_StopAxisRampsAMovingAxis :
    running.Ready ∧ (running.axis 2).st = .run ∧ (running.axis 2).stopReq = none ∧ running.entry (stopSlot 2) = .free ∧
      1 ≤ 262144 ∧ (running.setEntry (stopSlot 2) (.reserved .control)).entry (stopSlot 2) ≠ .free ∧
      (running.setEntry (stopSlot 2) (.reserved .control)).FreeGeneral 0 ∧ (ramping 20000 0).Ready ∧
      ((ramping 20000 0).axis 3).st = .rampDown ∧ ((ramping 20000 0).axis 3).stopReq = some pendingStop ∧
      (let s := { (ramping 20000 0).modAxis 3 fun x => { x with stopReq := none } with dev := .quiescing };
        s.dev = .quiescing ∧ s.interp = .waiting ∧ (s.axis 3).st = .rampDown ∧ (s.axis 3).stopReq = none ∧
          s.entry (stopSlot 3) = .free) := by
  unfold State.Ready State.FreeGeneral
  decide

theorem witness_StopAndAbortOfAnAxisAtRest :
    (let s := dwelling.setEntry 3 (.reserved (.axisRecord 1));
      s.Ready ∧ s.entry (stopSlot 1) = .free ∧ (s.axis 1).stopReq = none ∧ (s.axis 1).st = .dwell ∧ (s.axis 1).held = none ∧
      (s.axis 1).active = some (segOf (.dwell 3 none)) ∧ s.entry (segOf (.dwell 3 none)).entry ≠ .free ∧ (s.axis 0).st = .off ∧
      (let t := s.setEntry (stopSlot 1) (.reserved .control); t.entry (stopSlot 1) ≠ .free ∧ t.FreeGeneral 0) ∧
      (let t := { put 2 (runAxis moveA 32768 0 4) s with dev := .quiescing };
        t.dev = .quiescing ∧ t.interp = .waiting ∧ (t.axis 1).st = .dwell ∧ (t.axis 2).st.moving = true)) ∧
    (staged (.invalid 0)).Ready ∧ ((staged (.invalid 0)).axis 2).st = .idle ∧ ((staged (.invalid 0)).axis 2).active = none ∧
    1 ≤ 262144 ∧
    (let s := put 1 (heldDwell 5) (gathering.modGroup 5 fun y => { y with members := 0b1011, arrived := 0b1010 });
      let t := ((put 3 { heldDwell 5 with held := some { record := recOf 0x33 (.dwell 1 (some 5)), group := 5, entry := 6 } }
        s).setEntry 5 (.reserved (.heldSync 1))).setEntry 6 (.reserved (.heldSync 3));
      t.Ready ∧ t.entry (stopSlot 1) = .free ∧ (t.axis 1).st = .waitSync ∧ (t.axis 1).active = none ∧
        (t.axis 1).stopReq = none ∧ t.entry 5 ≠ .free ∧ t.entry 6 ≠ .free ∧
        (t.axis 1).held = some { record := recOf 0x31 (.dwell 1 (some 5)), group := 5, entry := 5 } ∧
        (t.group 5).st = .gathering ∧ ∀ b, b ≠ 1 → setHas (t.group 5).arrived b = true → (t.axis b).stopReq = none ∧
          (t.axis b).active = none ∧
          (t.axis b).held = some { record := recOf 0x33 (.dwell 1 (some 5)), group := 5, entry := 6 }) := by
  unfold State.Ready State.FreeGeneral
  decide

theorem witness_AbortAxisStopsAMovingAxis :
    (let s := running.setEntry 3 (.reserved (.axisRecord 2));
      s.Ready ∧ (s.axis 2).st = .run ∧ (s.axis 2).active = some (segOf (.move moveA)) ∧ (s.axis 2).held = none ∧
        s.entry (stopSlot 2) = .free ∧ (s.axis 2).stopReq = none ∧ s.entry (segOf (.move moveA)).entry ≠ .free ∧
        (let t := s.setEntry (stopSlot 2) (.reserved .control); t.entry (stopSlot 2) ≠ .free ∧ t.FreeGeneral 0)) ∧
    (let s := (ramping 20000 0).setEntry 3 (.reserved (.axisRecord 3));
      s.Ready ∧ (s.axis 3).st = .rampDown ∧ (s.axis 3).stopReq = some pendingStop ∧
        (s.axis 3).active = some (segOf (.move moveA)) ∧ s.entry (segOf (.move moveA)).entry ≠ .free ∧
        (segOf (.move moveA)).entry ≠ pendingStop.entry) ∧
    (let s := { ramping 20000 0 with dev := .quiescing };
      s.dev = .quiescing ∧ s.interp = .waiting ∧ (s.axis 3).st = .rampDown ∧ (∀ b, b ≠ 3 → (s.axis b).st.moving = false) ∧
        (let t := put 2 (runAxis moveA 32768 0 4) s; (t.axis 3).st = .rampDown ∧ ¬ ∀ b, b ≠ 3 → (t.axis b).st.moving = false)) := by
  unfold State.Ready State.FreeGeneral
  decide

theorem witness_ClearFaultLeavesHalted :
    halted.Ready ∧ halted.FreeGeneral 0 ∧ (halted.axis 1).st = .halted ∧ halted.entry (faultSlot 1) = .free ∧
      (halted.axis 0).st ≠ .halted ∧ (halted.setEntry (faultSlot 1) (.reserved .control)).entry (faultSlot 1) ≠ .free := by
  unfold State.Ready State.FreeGeneral
  decide

theorem witness_DefineAndClearGroup :
    (online.Ready ∧ online.FreeGeneral 0 ∧ (0 : Axis) ≠ 3 ∧ setHas 0b1001 0 = true ∧ setHas 0b1001 3 = true ∧ 1 ≤ 65535 ∧
      (online.group 7).st ≠ .gathering ∧ gathering.Ready ∧ gathering.FreeGeneral 0 ∧ (gathering.group 5).st = .gathering) ∧
    (online.Ready ∧ online.FreeGeneral 0 ∧ (online.group 7).st ≠ .gathering ∧ gathering.Ready ∧ gathering.FreeGeneral 0 ∧
      (gathering.group 5).st = .gathering ∧
      ∀ b, setHas (gathering.group 5).arrived b = true → (gathering.axis b).held ≠ none) := by
  unfold State.Ready State.FreeGeneral
  decide

theorem witness_SetCaptureArmsAndDisarms :
    online.Ready ∧ online.FreeGeneral 0 ∧ (online.axis 0).st = .off ∧ (running.axis 2).st ≠ .off ∧ running.Ready ∧
      running.FreeGeneral 0 ∧ 1 ≤ 255 ∧ (∀ n, (running.axis 2).arm.remaining = some n → n ≤ 255) := by
  unfold State.Ready State.FreeGeneral
  decide

theorem witness_RecordsTheInterpreterActsOnItself :
    (halted.Ready ∧ halted.FreeGeneral 0 ∧ (halted.axis 1).rate ≤ 262144 ∧ { haltedAxis with further := 255 }.further ≤ 255) ∧
    (online.Ready ∧ online.FreeGeneral 15) ∧
    (online.Ready ∧ (3#8).toNat < 4 ∧ online.entry (stopSlot 3) = .free ∧ ¬ (4#8).toNat < 4 ∧ online.FreeGeneral 0 ∧
      (online.setEntry (stopSlot 3) (.reserved .control)).entry (stopSlot 3) ≠ .free) := by
  unfold State.Ready State.FreeGeneral
  decide

/-- A CLEAR_GROUP in HOLDING, the pool taken, while axis 2 is at the end of a MOVE that leaves its entry, with a record for the group
behind it. -/
def holdingClear : State :=
  { (fullPool (put 2 { runAxis moveB 49152 0 0 with
        active := some { segOf (.move moveB) with record := { recOf 0xA0 (.move moveB) with report := false } }
        staging := [recOf 0x32 (.dwell 1 (some 5))] } online)).modGroup 5
      fun _ => { Group.reset with st := .armed, members := 0b0110 } with
    interp := .holding { tag := 1, body := .clearGroup 5 } }

/-- A record in HOLDING while TRG3 is armed on axis 2 and one general entry is FREE. -/
def holdingArmed : State :=
  { (fullPool armedTrg).setEntry 15 .free with interp := .holding { tag := 1, body := .nop } }

theorem witness_RecordIsHeldForWantOfAnEntry :
    (∀ e, ¬ (fullPool online).FreeGeneral e) ∧ (fullPool online).claim = none ∧ (fullPool online).Ready ∧
      (fullPool online).entry (stopSlot 0) ≠ .free ∧ ((fullPool online).axis 0).stopReq = none ∧
      (∀ e, ¬ holdingNop.FreeGeneral e) ∧ holdingNop.claim = none ∧ holdingNop.dev = .online ∧
      holdingNop.interp = .holding { tag := 1, body := .nop } ∧ (15 : Fin 24).val < 16 ∧
      holdingNop.port = some (.report 15 0 0) ∧
      (holdingArmed.claim = none ∧ holdingArmed.dev = .online ∧ holdingArmed.interp = .holding { tag := 1, body := .nop } ∧
        holdingArmed.FreeGeneral 15 ∧ (∀ k, holdingArmed.FreeGeneral k → k = 15) ∧ (holdingArmed.axis 2).arm.armed = true ∧
        (holdingArmed.axis 2).arm.source = .trg 3 ∧ (holdingArmed.axis 2).cfg.indexSrc = .own ∧
        (holdingArmed.axis 2).cfg.homeSrc = .own ∧ (∀ b, b ≠ 2 → (holdingArmed.axis b).arm.armed = false) ∧
        (∀ b, (holdingArmed.axis b).st ≠ .waitEvent) ∧ holdingArmed.pending = [] ∧ dueEvents holdingArmed = []) ∧
      (holdingClear.claim = none ∧ holdingClear.dev = .online ∧
        holdingClear.interp = .holding { tag := 1, body := .clearGroup 5 } ∧ (∀ e, ¬ holdingClear.FreeGeneral e) ∧
        (∀ g, (holdingClear.group g).st ≠ .gathering) ∧ (holdingClear.axis 2).st = .run ∧
        ((holdingClear.axis 2).active.map fun f => (f.record.body, f.record.report, f.entry)) = some (.move moveB, false, 3) ∧
        moveB.exit = .rest ∧ (holdingClear.axis 2).remaining = 0 ∧
        (holdingClear.axis 2).rate ≤ (holdingClear.axis 2).cfg.jumpLimit ∧ (holdingClear.axis 2).held = none ∧
        (holdingClear.axis 2).stopReq = none ∧ (holdingClear.axis 2).cfg.countsPerStep = 0 ∧
        (holdingClear.axis 2).staging = [recOf 0x32 (.dwell 1 (some 5))] ∧ (holdingClear.group 5).st = .armed ∧
        setHas (holdingClear.group 5).members 2 = true ∧ (holdingClear.group 5).arrived = 0 ∧
        setHas (holdingClear.group 5).members 1 = true) := by
  unfold State.Ready State.FreeGeneral
  refine ⟨?_, ?_, ?_, ?_, ?_, ?_, ?_, ?_, ?_, ?_, ?_, ?_, ?_⟩ <;> decide

end Sys2Proof.Tests
end

section
/-! PROOFS. A write to TAILPOST (R122): what makes it taken, and what the two outcomes are. -/

namespace Sys2Proof.Machine
open Sys2Proof

/-- R122: when a TAILPOST write is taken. -/
def TailpostTaken (ring : BitVec 3) (tail : BitVec 16) (s : State) : Prop :=
  ∃ h : ring.toNat < 5, s.dev = .online ∧ tail.toNat < (s.fetcher ⟨ring.toNat, h⟩).size

theorem not_tailpostTaken_iff {ring : BitVec 3} {tail : BitVec 16} {s : State} :
    ¬ TailpostTaken ring tail s ↔
      5 ≤ ring.toNat ∨ s.dev ≠ .online ∨
        ∃ h : ring.toNat < 5, (s.fetcher ⟨ring.toNat, h⟩).size ≤ tail.toNat := by
  unfold TailpostTaken
  by_cases hring : ring.toNat < 5
  · have hindex : ¬ 5 ≤ ring.toNat := by omega
    simp only [hring, hindex, exists_true_left, false_or, not_and_or, not_lt, ne_eq]
  · have hindex : 5 ≤ ring.toNat := by omega
    simp only [hring, hindex, IsEmpty.exists_iff, not_false_eq_true, true_or]

theorem tailpostNow_of_taken {ring : BitVec 3} {tail : BitVec 16} {s : State} (hring : ring.toNat < 5)
    (hdev : s.dev = .online) (hsize : tail.toNat < (s.fetcher ⟨ring.toNat, hring⟩).size) :
    tailpostNow ring tail s = s.modFetcher ⟨ring.toNat, hring⟩ fun f => { f with tail := tail.toNat } := by
  simp [tailpostNow, hring, hdev, hsize]

/-- Both refusing branches, of the ring index and of the guard, set the flag. -/
theorem tailpostNow_of_not_taken {ring : BitVec 3} {tail : BitVec 16} {s : State}
    (hnot : ¬ TailpostTaken ring tail s) : tailpostNow ring tail s = { s with postErr := true } := by
  unfold tailpostNow
  split
  next hring =>
    refine if_neg fun hguard => ?_
    obtain ⟨hdev, hsize⟩ := by simpa only [Bool.and_eq_true, decide_eq_true_eq] using hguard
    exact hnot ⟨hring, hdev, hsize⟩
  next => rfl

theorem exec_tailpost (ring : BitVec 3) (tail : BitVec 16) (s : State) :
    exec (.tailpost ring tail) s = .next (tailpostNow ring tail s) := rfl

/-- Settles O19: the two clauses are the taken write and, by `not_tailpostTaken_iff`, the one that is not. -/
theorem tailpostSetsTheTail : Obligations.TailpostSetsTheTail := by
  intro s ring tail
  rw [exec_tailpost]
  constructor
  · intro hring hdev hsize
    rw [tailpostNow_of_taken hring hdev hsize]
  · intro hrefused
    rw [tailpostNow_of_not_taken (not_tailpostTaken_iff.mpr hrefused)]

end Sys2Proof.Machine
end

section
/-! PROOFS. A write to CHEAD (R143): the model's distance around a ring is the rule's difference modulo the size, what makes the
write taken, and what the two outcomes are. -/

namespace Sys2Proof.Machine
open Sys2Proof

/-- The model counts forward in natural numbers, R143 subtracts modulo the size. They agree from any index of the ring. -/
theorem ringDist_eq_emod {a size : Nat} (b : Nat) (ha : a ≤ size) :
    (ringDist a b size : Int) = ((b : Int) - a) % size := by
  have hshift : ((b + size - a : Nat) : Int) = ((b : Int) - a) + size := by omega
  rw [ringDist, Int.natCast_emod, hshift, Int.add_emod_right]

/-- Moving the start of a count forward, no further than its end, shortens the count by the way moved. -/
theorem emod_sub_emod_of_le {a b c n : Int} (hn : 0 < n) (hle : (b - a) % n ≤ (c - a) % n) :
    (c - b) % n = (c - a) % n - (b - a) % n := by
  have hstart : 0 ≤ (b - a) % n := Int.emod_nonneg _ hn.ne'
  have hend : (c - a) % n < n := Int.emod_lt_of_pos _ hn
  calc (c - b) % n = ((c - a) - (b - a)) % n := by rw [sub_sub_sub_cancel_right]
    _ = ((c - a) % n - (b - a) % n) % n := Int.sub_emod ..
    _ = (c - a) % n - (b - a) % n := Int.emod_eq_of_lt (by omega) (by omega)

theorem hostHead_le_of_indicesIn {size head tail : Nat} (hin : indicesIn size head tail) : head ≤ size := by
  unfold indicesIn at hin
  omega

/-- R143: when a CHEAD write is taken. -/
def CheadTaken (head : BitVec 16) (s : State) : Prop :=
  (s.dev = .online ∨ s.dev = .quiescing) ∧ head.toNat < s.writer.size ∧
    ((head.toNat : Int) - s.writer.hostHead) % s.writer.size ≤ ((s.writer.tail : Int) - s.writer.hostHead) % s.writer.size

theorem cheadOk_iff {w : Writer} (h : Nat) (hhead : w.hostHead ≤ w.size) :
    cheadOk w h = true ↔
      h < w.size ∧ ((h : Int) - w.hostHead) % w.size ≤ ((w.tail : Int) - w.hostHead) % w.size := by
  rw [← ringDist_eq_emod h hhead, ← ringDist_eq_emod w.tail hhead, Int.ofNat_le]
  simp only [cheadOk, Bool.and_eq_true, decide_eq_true_eq]

/-- The guard of the model's write is the rule's condition. -/
theorem cheadTaken_iff {head : BitVec 16} {s : State} (hhead : s.writer.hostHead ≤ s.writer.size) :
    CheadTaken head s ↔ ((s.dev = .online || s.dev = .quiescing) && cheadOk s.writer head.toNat) = true := by
  simp only [CheadTaken, Bool.and_eq_true, Bool.or_eq_true, decide_eq_true_eq, cheadOk_iff _ hhead]

theorem cheadNow_of_taken {head : BitVec 16} {s : State} (hhead : s.writer.hostHead ≤ s.writer.size)
    (htaken : CheadTaken head s) :
    cheadNow head s = { s with writer := { s.writer with hostHead := head.toNat } } :=
  if_pos ((cheadTaken_iff hhead).mp htaken)

theorem cheadNow_of_not_taken {head : BitVec 16} {s : State} (hhead : s.writer.hostHead ≤ s.writer.size)
    (hnot : ¬ CheadTaken head s) : cheadNow head s = { s with headErr := true } :=
  if_neg (mt (cheadTaken_iff hhead).mpr hnot)

/-- The count of reports written and not released falls by the slots a taken write releases (R143). -/
theorem unreleased_falls_of_cheadTaken {head : BitVec 16} {s : State} (htaken : CheadTaken head s) :
    ((s.writer.tail : Int) - head.toNat) % s.writer.size =
      ((s.writer.tail : Int) - s.writer.hostHead) % s.writer.size -
        ((head.toNat : Int) - s.writer.hostHead) % s.writer.size := by
  obtain ⟨-, hsize, hle⟩ := htaken
  exact emod_sub_emod_of_le (by omega) hle

theorem exec_chead (head : BitVec 16) (s : State) : exec (.chead head) s = .next (cheadNow head s) := rfl

/-- Settles O20: the indices' premise makes the model's guard the rule's condition, and its two branches are the two clauses. -/
theorem cheadReleasesSlots : Obligations.CheadReleasesSlots := by
  intro s head w ahead taken hin
  have hhead : s.writer.hostHead ≤ s.writer.size := hostHead_le_of_indicesIn hin
  rw [exec_chead]
  constructor
  · intro htaken
    rw [cheadNow_of_taken hhead htaken]
    exact ⟨rfl, unreleased_falls_of_cheadTaken htaken⟩
  · intro hnot
    rw [cheadNow_of_not_taken hhead hnot]

end Sys2Proof.Machine
end

section
/-! PROOFS. A write to CTL (R163): what GO and HALT do in a state that does not admit them, and the outcomes of the write, in the
order of its judgement. -/

namespace Sys2Proof.Machine
open Sys2Proof

theorem goNow_of_not_offline {s : State} (hdev : s.dev ≠ .offline) : goNow s = s := if_neg hdev

theorem haltNow_of_not_online {s : State} (hdev : s.dev ≠ .online) : haltNow s = s := if_neg hdev

theorem ctlNow_of_soft (go halt : Bool) (s : State) : ctlNow go halt true s = softResetNow s := rfl

theorem ctlNow_of_go {s : State} (halt : Bool) (hdev : s.dev = .offline) : ctlNow true halt false s = goNow s := by
  simp [ctlNow, hdev]

/-- Where the GO position is not taken, the HALT position alone decides. -/
theorem ctlNow_of_go_not_taken {go : Bool} {s : State} (halt : Bool) (hgo : go = false ∨ s.dev ≠ .offline) :
    ctlNow go halt false s = if halt then haltNow s else s := by
  have hguard : (go && decide (s.dev = .offline)) = false := by
    simpa only [Bool.and_eq_false_iff, decide_eq_false_iff_not] using hgo
  simp [ctlNow, hguard]

/-- A HALT position at 0 asks for nothing, and one at 1 outside ONLINE is ignored. -/
theorem ctlNow_of_neither_taken {go halt : Bool} {s : State} (hgo : go = false ∨ s.dev ≠ .offline)
    (hhalt : halt = false ∨ s.dev ≠ .online) : ctlNow go halt false s = s := by
  rw [ctlNow_of_go_not_taken halt hgo]
  obtain rfl | hdev := hhalt
  · rfl
  · rw [haltNow_of_not_online hdev, ite_self]

/-- No device state admits both GO and HALT, so a HALT in ONLINE is taken whatever the GO position. -/
theorem ctlNow_of_halt {s : State} (go : Bool) (hdev : s.dev = .online) : ctlNow go true false s = haltNow s := by
  have hnotOffline : s.dev ≠ .offline := by simp [hdev]
  exact ctlNow_of_go_not_taken true (.inr hnotOffline)

theorem exec_softReset (s : State) : exec .softReset s = .next (softResetNow s) := rfl

theorem exec_go (s : State) : exec .go s = .next (goNow s) := rfl

theorem exec_halt (s : State) : exec .halt s = .next (haltNow s) := rfl

theorem exec_registerWrite_ctl (v : Word) (s : State) :
    exec (.registerWrite .ctl v) s = .next (ctlNow (v.getLsbD 0) (v.getLsbD 1) (v.getLsbD 2) s) := rfl

/-- Settles O15: one outcome of `ctlNow` for each clause on the write, then GO and HALT where they are not admitted. -/
theorem ctlWriteIsJudgedWhole : Obligations.CtlWriteIsJudgedWhole := by
  intro s v
  rw [exec_registerWrite_ctl, exec_softReset, exec_go, exec_halt]
  refine ⟨?soft, ?go, ?halt, ?neither, ?goIgnored, ?haltIgnored⟩
  case soft =>
    intro hsoft
    rw [hsoft, ctlNow_of_soft]
  case go =>
    intro hsoft hgo hdev
    rw [hsoft, hgo, ctlNow_of_go _ hdev]
  case halt =>
    intro hsoft hhalt hdev
    rw [hsoft, hhalt, ctlNow_of_halt _ hdev]
  case neither =>
    intro hsoft hgo hhalt
    rw [hsoft, ctlNow_of_neither_taken hgo hhalt]
  case goIgnored =>
    intro hdev
    rw [goNow_of_not_offline hdev]
  case haltIgnored =>
    intro hdev
    rw [haltNow_of_not_online hdev]

end Sys2Proof.Machine
end

section
/-! PROOFS. The invariants of an axis block: what the branching operations leave of a block, then that every primitive change keeps
each invariant. -/

namespace Sys2Proof.Machine
open Sys2Proof

/-! ### What the branching operations leave of a block -/

theorem AxisBlock.rampPeriod_eq (x : AxisBlock) : ∃ r f n p l,
    x.rampPeriod = { x with rate := r, frac := f, remaining := n, periodSteps := p, schedule := l } ∧
      r ≤ x.rate ∧ f < 65536 ∧ (r = 0 → f = 0) := by
  unfold AxisBlock.rampPeriod AxisBlock.handOver
  dsimp only
  split
  next => exact ⟨0, 0, _, 0, _, rfl, by omega, by omega, fun _ => rfl⟩
  next hrate => exact ⟨_, _, _, _, _, rfl, by omega, by omega, fun h => absurd h hrate⟩

theorem Stopped.block_eq {x y : AxisBlock} (h : Stopped x y) : ∃ r f n p l m,
    y = { x with rate := r, frac := f, remaining := n, periodSteps := p, schedule := l, setupMark := m } ∧
      (x.st.moving = false ∧ r = x.rate ∧ f = x.frac ∨ r = 0 ∧ f = 0) := by
  cases h with
  | resting hst => exact ⟨_, _, _, _, _, _, rfl, .inl ⟨hst, rfl, rfl⟩⟩
  | still => exact ⟨_, _, _, _, _, _, rfl, .inr ⟨rfl, rfl⟩⟩
  | ramped _ hrate =>
    obtain ⟨r, f, n, p, l, heq, -, -, hzero⟩ := x.rampPeriod_eq
    rw [heq] at hrate ⊢
    exact ⟨r, f, n, p, l, _, rfl, .inr ⟨hrate, hzero hrate⟩⟩
  | ended => exact ⟨_, _, _, _, _, _, rfl, .inr ⟨rfl, rfl⟩⟩

theorem AxisBlock.applyRef_eq (w : Wait) (x : AxisBlock) : ∃ p q v,
    x.applyRef w = { x with cmdPos := p, encPos := q, acc := v } ∧ (v = x.acc ∨ v = 0) := by
  unfold AxisBlock.applyRef
  split
  next => exact ⟨_, _, _, rfl, .inl rfl⟩
  next => exact ⟨_, _, _, rfl, .inr rfl⟩

theorem AxisBlock.applySetpos_eq (c e : Option Word) (x : AxisBlock) : ∃ p q v,
    x.applySetpos c e = { x with cmdPos := p, encPos := q, acc := v } ∧ (v = x.acc ∨ v = 0) := by
  cases c <;> cases e
  case none.none => exact ⟨_, _, _, rfl, .inl rfl⟩
  case some.none => exact ⟨_, _, _, rfl, .inl rfl⟩
  case none.some => exact ⟨_, _, _, rfl, .inr rfl⟩
  case some.some => exact ⟨_, _, _, rfl, .inr rfl⟩

theorem AxisBlock.checkHalted_eq (x : AxisBlock) : ∃ n o,
    x.checkHalted = { x with further := n, outside := o } ∧ (n = x.further ∨ n = satInc x.further) := by
  unfold AxisBlock.checkHalted
  split
  next => exact ⟨_, _, rfl, .inl rfl⟩
  next =>
    split
    next => exact ⟨_, _, rfl, by cases x.outside <;> simp⟩
    next => exact ⟨_, _, rfl, .inl rfl⟩

theorem AxisBlock.toOff_of_off {x : AxisBlock} (h : x.st = .off) : x.toOff = x := if_pos h

theorem AxisBlock.toOff_of_ne {x : AxisBlock} (h : x.st ≠ .off) :
    x.toOff = { x with
      st := .off, staging := [], active := none, held := none, stopReq := none, cause := none, further := 0
      rate := 0, frac := 0, remaining := 0, firstMark := false, decel := x.cfg.stopDecel, periodSteps := 0
      timer := none, en := false, schedule := [], setupMark := false } := if_neg h

theorem AxisState.moving_iff (st : AxisState) : st.moving = true ↔ st = .run ∨ st = .rampDown := by
  cases st <;> simp [AxisState.moving]

theorem AxisState.moving_eq_false_iff (st : AxisState) : st.moving = false ↔ st ≠ .run ∧ st ≠ .rampDown := by
  cases st <;> simp [AxisState.moving]

/-- With the invariant of held records, an axis at rest that keeps its held record has none. -/
theorem held_none_of_not_waitSync {x : AxisBlock} {hd : Option Held} (hheld : x.held ≠ none → x.st = .waitSync)
    (h : hd = x.held ∧ x.st ≠ .waitSync) : hd = none := by
  rw [h.1]
  exact not_not.mp fun hsome => h.2 (hheld hsome)

/-! ### EN, the timer and DIR -/

theorem outputsFollow_step {x y : AxisBlock} (h : AxisStep x y) (k : x.OutputsFollow) : y.OutputsFollow := by
  obtain ⟨hheld, hen, htimer, hdir⟩ := k
  simp only [AxisBlock.HeldInWaitSync] at hheld
  cases h with
  | halt c lr o hout =>
    have hoff : x.st ≠ .off := hout.elim id fun hh => by simp [hheld hh]
    constructor <;> simp_all [AxisBlock.HeldInWaitSync, AxisBlock.still]
  | idle y l ac hd q lr hstop hoff hhalted hhd =>
    obtain ⟨r, f, n, p, m, u, rfl, -⟩ := hstop.block_eq
    have hnone : hd = none := hhd.elim id (held_none_of_not_waitSync hheld)
    constructor <;> simp_all [AxisBlock.HeldInWaitSync]
  | rampPeriod hst =>
    obtain ⟨r, f, n, p, l, heq, -⟩ := x.rampPeriod_eq
    constructor <;> simp_all [AxisBlock.HeldInWaitSync]
  | enterRamp d hmov =>
    rw [AxisState.moving_iff] at hmov
    constructor <;> obtain hst | hst := hmov <;> simp_all [AxisBlock.HeldInWaitSync, AxisBlock.enterRamp]
  | applyRef w =>
    obtain ⟨p, q, v, heq, -⟩ := x.applyRef_eq w
    constructor <;> simp_all [AxisBlock.HeldInWaitSync]
  | applySetpos c e =>
    obtain ⟨p, q, v, heq, -⟩ := x.applySetpos_eq c e
    constructor <;> simp_all [AxisBlock.HeldInWaitSync]
  | checkHalted hst =>
    obtain ⟨n, o, heq, -⟩ := x.checkHalted_eq
    constructor <;> simp_all [AxisBlock.HeldInWaitSync]
  | toOff =>
    by_cases hoff : x.st = .off
    · rw [AxisBlock.toOff_of_off hoff]
      exact ⟨hheld, hen, htimer, hdir⟩
    · rw [AxisBlock.toOff_of_ne hoff]
      constructor <;> simp_all [AxisBlock.HeldInWaitSync]
  | disable hst =>
    have hnone : x.held = none := not_not.mp fun hsome => by simp [hheld hsome] at hst
    constructor <;> simp_all [AxisBlock.HeldInWaitSync, AxisBlock.disabled, AxisBlock.disarm]
  | release h m hh =>
    have hst := hheld (by simp [hh])
    constructor <;>
      simp_all [AxisBlock.HeldInWaitSync, unhold, AxisBlock.enterRun, AxisBlock.openPeriod, AxisBlock.handOver]
  | releaseDwell h hh =>
    have hst := hheld (by simp [hh])
    constructor <;> simp_all [AxisBlock.HeldInWaitSync, unhold]
  | releaseHalt h c lr o hh =>
    have hst := hheld (by simp [hh])
    constructor <;> simp_all [AxisBlock.HeldInWaitSync, unhold, AxisBlock.still]
  | enterRun | openPeriod | joinRun =>
    constructor <;>
      simp_all [AxisBlock.HeldInWaitSync, AxisBlock.enterRun, AxisBlock.joinRun, AxisBlock.openPeriod, AxisBlock.handOver]
  | enable | clear | reset | tick =>
    constructor <;>
      simp_all [AxisBlock.HeldInWaitSync, AxisBlock.enabled, AxisBlock.cleared, AxisBlock.afterReset, AxisBlock.reset,
        AxisBlock.tick, lessTick, dirLevel]
  | _ =>
    constructor <;>
      simp_all [AxisBlock.HeldInWaitSync, AxisBlock.setLatch, AxisBlock.countExpiry, AxisBlock.countQuad, AxisBlock.expire,
        AxisBlock.beginPulse]

/-- Settles O5: every primitive change of a block keeps the outputs with the state. -/
theorem outputsFollowAxisState : Obligations.OutputsFollowAxisState :=
  fun _ _ hs hstep => step_axis_keeps (fun _ _ h k => outputsFollow_step h k) hstep hs

/-! ### Fault causes and further faults -/

theorem causeInHalted_step {x y : AxisBlock} (h : AxisStep x y) (k : x.CauseInHalted) : y.CauseInHalted := by
  obtain ⟨hheld, hcause, hfurther⟩ := k
  simp only [AxisBlock.HeldInWaitSync] at hheld
  cases h with
  | idle y l ac hd q lr hstop hoff hhalted hhd =>
    obtain ⟨r, f, n, p, m, u, rfl, -⟩ := hstop.block_eq
    have hnone : hd = none := hhd.elim id (held_none_of_not_waitSync hheld)
    constructor <;> simp_all [AxisBlock.HeldInWaitSync]
  | rampPeriod hst =>
    obtain ⟨r, f, n, p, l, heq, -⟩ := x.rampPeriod_eq
    constructor <;> simp_all [AxisBlock.HeldInWaitSync]
  | enterRamp d hmov =>
    rw [AxisState.moving_iff] at hmov
    constructor <;> obtain hst | hst := hmov <;> simp_all [AxisBlock.HeldInWaitSync, AxisBlock.enterRamp]
  | applyRef w =>
    obtain ⟨p, q, v, heq, -⟩ := x.applyRef_eq w
    constructor <;> simp_all [AxisBlock.HeldInWaitSync]
  | applySetpos c e =>
    obtain ⟨p, q, v, heq, -⟩ := x.applySetpos_eq c e
    constructor <;> simp_all [AxisBlock.HeldInWaitSync]
  | checkHalted hst =>
    obtain ⟨n, o, heq, -⟩ := x.checkHalted_eq
    constructor <;> simp_all [AxisBlock.HeldInWaitSync]
  | toOff =>
    by_cases hoff : x.st = .off
    · rw [AxisBlock.toOff_of_off hoff]
      exact ⟨hheld, hcause, hfurther⟩
    · rw [AxisBlock.toOff_of_ne hoff]
      constructor <;> simp [AxisBlock.HeldInWaitSync]
  | disable hst =>
    have hnone : x.held = none := not_not.mp fun hsome => by simp [hheld hsome] at hst
    constructor <;> simp_all [AxisBlock.HeldInWaitSync, AxisBlock.disabled, AxisBlock.disarm]
  | release h m hh =>
    have hst := hheld (by simp [hh])
    constructor <;>
      simp_all [AxisBlock.HeldInWaitSync, unhold, AxisBlock.enterRun, AxisBlock.openPeriod, AxisBlock.handOver]
  | releaseDwell h hh =>
    have hst := hheld (by simp [hh])
    constructor <;> simp_all [AxisBlock.HeldInWaitSync, unhold]
  | enterRun | openPeriod | joinRun =>
    constructor <;>
      simp_all [AxisBlock.HeldInWaitSync, AxisBlock.enterRun, AxisBlock.joinRun, AxisBlock.openPeriod, AxisBlock.handOver]
  | enable | clear | reset | tick =>
    constructor <;>
      simp_all [AxisBlock.HeldInWaitSync, AxisBlock.enabled, AxisBlock.cleared, AxisBlock.afterReset, AxisBlock.reset,
        AxisBlock.tick]
  | _ =>
    constructor <;>
      simp_all [AxisBlock.HeldInWaitSync, AxisBlock.setLatch, AxisBlock.countExpiry, AxisBlock.countQuad, AxisBlock.expire,
        AxisBlock.beginPulse]

/-- Settles O6: every primitive change of a block keeps the cause and the further faults to HALTED. -/
theorem causeOnlyInHalted : Obligations.CauseOnlyInHalted :=
  fun _ _ hs hstep => step_axis_keeps (fun _ _ h k => causeInHalted_step h k) hstep hs

/-! ### Latches and counts -/

/-- A clear latch has its overrun flag clear and its time 0 (R94). -/
def Latch.Formed (l : Latch) : Prop := l.flag = false → l.overrun = false ∧ l.time = 0

theorem Latch.formed_clear : Latch.clear.Formed := fun _ => ⟨rfl, rfl⟩

theorem Latch.formed_take (now : Word) (l : Latch) : (l.take now).Formed := by
  intro hflag
  unfold Latch.take at hflag
  split at hflag <;> simp_all

theorem formed_setLatch {x : AxisBlock} (h : ∀ src, (x.latch src).Formed) (src : Source) {l : Latch} (hl : l.Formed)
    (src' : Source) : ((x.setLatch src l).latch src').Formed := by
  rw [AxisBlock.latch_setLatch]
  split
  next => exact hl
  next => exact h src'

theorem formed_cleared (src : Source) : ((Vector.replicate 6 Latch.clear)[sourceIx src]).Formed := by
  rw [Fin.getElem_fin, Vector.getElem_replicate]
  exact Latch.formed_clear

theorem satInc_le {n : Nat} (h : n ≤ 255) : satInc n ≤ 255 := by
  unfold satInc
  split <;> omega

theorem satAcc_bounds {acc : Int} (d : Int) (_h : -2147483647 ≤ acc ∧ acc ≤ 2147483647) :
    -2147483647 ≤ satAcc acc d ∧ satAcc acc d ≤ 2147483647 := by
  unfold satAcc
  split
  next => omega
  next => split <;> omega

theorem countsInRange_step {x y : AxisBlock} (h : AxisStep x y) (k : x.CountsInRange) : y.CountsInRange := by
  obtain ⟨hlatch, hfurther, hquad, hmissed, hacc⟩ := k
  have hsat : ∀ {n : Nat}, n ≤ 255 → satInc n ≤ 255 := satInc_le
  cases h with
  | idle y l ac hd q lr hstop =>
    obtain ⟨r, f, n, p, m, u, rfl, -⟩ := hstop.block_eq
    exact ⟨hlatch, hfurther, hquad, hmissed, hacc⟩
  | rampPeriod hst =>
    obtain ⟨r, f, n, p, l, heq, -⟩ := x.rampPeriod_eq
    rw [heq]
    exact ⟨hlatch, hfurther, hquad, hmissed, hacc⟩
  | applyRef w =>
    obtain ⟨p, q, v, heq, hv⟩ := x.applyRef_eq w
    rw [heq]
    exact ⟨hlatch, hfurther, hquad, hmissed, by obtain rfl | rfl := hv <;> simp [hacc]⟩
  | applySetpos c e =>
    obtain ⟨p, q, v, heq, hv⟩ := x.applySetpos_eq c e
    rw [heq]
    exact ⟨hlatch, hfurther, hquad, hmissed, by obtain rfl | rfl := hv <;> simp [hacc]⟩
  | checkHalted hst =>
    obtain ⟨n, o, heq, hn⟩ := x.checkHalted_eq
    rw [heq]
    exact ⟨hlatch, by obtain rfl | rfl := hn <;> simp [hfurther, hsat], hquad, hmissed, hacc⟩
  | toOff =>
    by_cases hoff : x.st = .off
    · rw [AxisBlock.toOff_of_off hoff]
      exact ⟨hlatch, hfurther, hquad, hmissed, hacc⟩
    · rw [AxisBlock.toOff_of_ne hoff]
      exact ⟨hlatch, Nat.zero_le _, hquad, hmissed, hacc⟩
  | clearLatch src => exact ⟨formed_setLatch hlatch src Latch.formed_clear, hfurther, hquad, hmissed, hacc⟩
  | takeLatch src now => exact ⟨formed_setLatch hlatch src (Latch.formed_take now _), hfurther, hquad, hmissed, hacc⟩
  | clearLatches => exact ⟨formed_cleared, hfurther, hquad, hmissed, hacc⟩
  | enable => exact ⟨formed_cleared, hfurther, Nat.zero_le _, hmissed, by simp [AxisBlock.enabled]⟩
  | reset => exact ⟨formed_cleared, Nat.zero_le _, Nat.zero_le _, Nat.zero_le _, by simp [AxisBlock.afterReset, AxisBlock.reset]⟩
  | disable => exact ⟨hlatch, Nat.zero_le _, hquad, hmissed, hacc⟩
  | clear realign => exact ⟨hlatch, Nat.zero_le _, hquad, hmissed, by cases realign <;> simp [AxisBlock.cleared, hacc]⟩
  | arm m hm => exact ⟨hlatch, hfurther, hquad, by obtain h | h | h := hm <;> simp [h, hmissed, hsat], hacc⟩
  | quadState n p q hn => exact ⟨hlatch, hfurther, by obtain rfl | rfl := hn <;> simp [hquad, hsat], hmissed, hacc⟩
  | countQuad c p => exact ⟨hlatch, hfurther, hquad, hmissed, satAcc_bounds _ hacc⟩
  | beginPulse l =>
    exact ⟨hlatch, hfurther, hquad, hmissed, by cases hdir : x.dir <;> simp [AxisBlock.beginPulse, hdir, satAcc_bounds _ hacc]⟩
  | _ => exact ⟨hlatch, hfurther, hquad, hmissed, hacc⟩

/-- Settles O7: every primitive change of a block keeps the latches' form and the counts. -/
theorem countsStayInRange : Obligations.CountsStayInRange :=
  fun _ _ hs hstep => step_axis_keeps (fun _ _ h k => countsInRange_step h k) hstep hs

/-! ### Rates and fractions -/

theorem configChecks_pass {c : AxisConfig} (h : firstFailing c = none) :
    1 ≤ c.creepRate ∧ c.creepRate ≤ c.maxRate ∧ 1 ≤ c.maxRate := by
  simp only [firstFailing, configChecks, Option.map_eq_none_iff, List.find?_eq_none] at h
  have hcreep := h (3, 1 ≤ c.creepRate && c.creepRate ≤ 262144) (by simp)
  have horder := h (10, c.creepRate ≤ c.maxRate) (by simp)
  simp only [Bool.not_eq_true', Bool.not_eq_false, Bool.and_eq_true, decide_eq_true_eq] at hcreep horder
  omega

theorem clampRate_bounds {c : AxisConfig} (h : c.creepRate ≤ c.maxRate) (v : Int) :
    c.creepRate ≤ clampRate c v ∧ clampRate c v ≤ c.maxRate := by
  unfold clampRate
  split
  next => omega
  next => split <;> omega

theorem firstRate_bounds {c : AxisConfig} (h : c.creepRate ≤ c.maxRate) {m : Move} (hm : startRateOk c m = true) (held : Nat) :
    c.creepRate ≤ firstRate c held m ∧ firstRate c held m ≤ c.maxRate := by
  unfold firstRate
  unfold startRateOk at hm
  cases hr : m.startRate with
  | none => exact clampRate_bounds h _
  | some r => simpa [hr] using hm

/-- What the computation that opens a period leaves: a rate in range and a fraction below one step. -/
theorem openPeriod_ratesInRange {x : AxisBlock} {m : Move} (hheld : x.held = none) (hconfig : firstFailing x.cfg = none)
    (hrun : x.st = .run) (hm : x.firstMark = true → startRateOk x.cfg m = true) : (x.openPeriod m).RatesInRange := by
  obtain ⟨-, horder, -⟩ := configChecks_pass hconfig
  have hrate : x.cfg.creepRate ≤ x.nextRate m ∧ x.nextRate m ≤ x.cfg.maxRate := by
    unfold AxisBlock.nextRate
    split
    next hfirst => exact firstRate_bounds horder (hm hfirst) _
    next => exact clampRate_bounds horder _
  refine ⟨fun h => absurd hheld h, fun h hh => ?_, hconfig, rfl, Nat.mod_lt _ (by omega), fun h => absurd hrun h,
    fun _ => hrate, fun _ => hrate.2⟩
  exact absurd (hheld.symm.trans hh) (by simp)

theorem startRateOk_of_rateOk {c : AxisConfig} {m : Move} (h : rateOk c (.move m)) : startRateOk c m = true := by
  simpa [rateOk, frontInvalid] using h

/-- At rest, with no mark, the invariant asks for rate and fraction 0 and for nothing else. -/
theorem ratesInRange_of_rest {y : AxisBlock} (hheld : y.HeldInWaitSync)
    (hheldRate : ∀ h, y.held = some h → frontInvalid y.cfg h.record.body = false) (hconfig : firstFailing y.cfg = none)
    (hmark : y.firstMark = false) (hst : y.st.moving = false) (hrate : y.rate = 0) (hfrac : y.frac = 0) :
    y.RatesInRange := by
  rw [AxisState.moving_eq_false_iff] at hst
  exact ⟨hheld, hheldRate, hconfig, hmark, by omega, fun _ _ => ⟨hrate, hfrac⟩, fun h => absurd h hst.1, fun h => absurd h hst.2⟩

theorem ratesInRange_step {x y : AxisBlock} (h : AxisStep x y) (k : x.RatesInRange) : y.RatesInRange := by
  have hk := k
  obtain ⟨hheld, hheldRate, hconfig, hmark, hfrac, hrest, hrun, hramp⟩ := k
  have hnone : ∀ {st}, x.st = st → st ≠ .waitSync → x.held = none := fun hst hne =>
    not_not.mp fun hsome => hne (hst ▸ hheld hsome)
  have hwait : ∀ {h : Held}, x.held = some h → x.rate = 0 ∧ x.frac = 0 := fun hh => by
    have hst := hheld (by simp [hh])
    exact hrest (by simp [hst]) (by simp [hst])
  cases h with
  | retireHeld lr =>
    exact ⟨fun h => absurd rfl h, fun h hh => by simp at hh, hconfig, hmark, hfrac, hrest, hrun, hramp⟩
  | halt c lr o =>
    exact ratesInRange_of_rest (fun h => absurd rfl h) (fun h hh => by simp at hh) hconfig hmark rfl rfl rfl
  | releaseHalt h c lr o =>
    exact ratesInRange_of_rest (fun h => absurd rfl h) (fun h hh => by simp at hh) hconfig hmark rfl rfl rfl
  | idle y l ac hd q lr hstop hoff hhalted hhd =>
    obtain ⟨r, f, n, p, m, u, rfl, hrf⟩ := hstop.block_eq
    obtain rfl : hd = none := hhd.elim id (held_none_of_not_waitSync hheld)
    have hzero : r = 0 ∧ f = 0 := by
      obtain ⟨hst, rfl, rfl⟩ | hz := hrf
      · rw [AxisState.moving_eq_false_iff] at hst
        exact hrest hst.1 hst.2
      · exact hz
    exact ratesInRange_of_rest (fun h => absurd rfl h) (fun h hh => by simp at hh) hconfig hmark rfl hzero.1 hzero.2
  | openPeriod m hst =>
    exact openPeriod_ratesInRange (hnone hst (by simp)) hconfig hst fun hfirst => by simp [hmark] at hfirst
  | joinRun m hst hm => exact openPeriod_ratesInRange (hnone hst (by simp)) hconfig hst fun _ => hm
  | enterRun m hst hm => exact openPeriod_ratesInRange (hnone hst (by simp)) hconfig rfl fun _ => hm
  | release h m hh hbody =>
    have hm : startRateOk x.cfg m = true := startRateOk_of_rateOk (hbody ▸ hheldRate h hh)
    exact openPeriod_ratesInRange rfl hconfig rfl fun _ => hm
  | releaseDwell h hh =>
    exact ratesInRange_of_rest (fun h => absurd rfl h) (fun h hh => by simp [unhold] at hh) hconfig hmark rfl
      (hwait hh).1 (hwait hh).2
  | rampPeriod hst =>
    obtain ⟨r, f, n, p, l, heq, hle, hf, -⟩ := x.rampPeriod_eq
    rw [heq]
    exact ⟨hheld, hheldRate, hconfig, hmark, hf, fun _ hne => absurd hst hne, fun h => by simp [hst] at h,
      fun _ => hle.trans (hramp hst)⟩
  | enterRamp d hmov =>
    rw [AxisState.moving_iff] at hmov
    have hheldNone : x.held = none := hmov.elim (hnone · (by simp)) (hnone · (by simp))
    refine ⟨fun h => absurd hheldNone h, hheldRate, hconfig, hmark, hfrac, fun _ hne => absurd rfl hne, fun h => ?_,
      fun _ => ?_⟩
    · simp [AxisBlock.enterRamp] at h
    · exact hmov.elim (fun hst => (hrun hst).2) hramp
  | dwell hst | waitEvent hst =>
    exact ratesInRange_of_rest (fun h => absurd (hnone hst (by simp)) h) hheldRate hconfig hmark rfl
      (hrest (by simp [hst]) (by simp [hst])).1 (hrest (by simp [hst]) (by simp [hst])).2
  | arrive h hst hrate =>
    exact ratesInRange_of_rest (fun _ => rfl) (fun k hk => by cases hk; exact hrate) hconfig hmark rfl
      (hrest (by simp [hst]) (by simp [hst])).1 (hrest (by simp [hst]) (by simp [hst])).2
  | applyRef w =>
    obtain ⟨p, q, v, heq, -⟩ := x.applyRef_eq w
    rw [heq]
    exact ⟨hheld, hheldRate, hconfig, hmark, hfrac, hrest, hrun, hramp⟩
  | applySetpos c e =>
    obtain ⟨p, q, v, heq, -⟩ := x.applySetpos_eq c e
    rw [heq]
    exact ⟨hheld, hheldRate, hconfig, hmark, hfrac, hrest, hrun, hramp⟩
  | checkHalted hst =>
    obtain ⟨n, o, heq, -⟩ := x.checkHalted_eq
    rw [heq]
    exact ⟨hheld, hheldRate, hconfig, hmark, hfrac, hrest, hrun, hramp⟩
  | toOff =>
    by_cases hoff : x.st = .off
    · rwa [AxisBlock.toOff_of_off hoff]
    · rw [AxisBlock.toOff_of_ne hoff]
      exact ratesInRange_of_rest (fun h => absurd rfl h) (fun h hh => by simp at hh) hconfig rfl rfl rfl rfl
  | configure c hst hpass =>
    have hheldNone := hnone hst (by simp)
    exact ratesInRange_of_rest hheld (fun h hh => by simp [hheldNone] at hh) hpass hmark (by simp [hst, AxisState.moving])
      (hrest (by simp [hst]) (by simp [hst])).1 (hrest (by simp [hst]) (by simp [hst])).2
  | enable hst =>
    exact ratesInRange_of_rest (fun h => absurd (hnone hst (by simp)) h) hheldRate hconfig hmark rfl
      (hrest (by simp [hst]) (by simp [hst])).1 (hrest (by simp [hst]) (by simp [hst])).2
  | clear realign hst =>
    exact ratesInRange_of_rest (fun h => absurd (hnone hst (by simp)) h) hheldRate hconfig hmark rfl
      (hrest (by simp [hst]) (by simp [hst])).1 (hrest (by simp [hst]) (by simp [hst])).2
  | disable hst =>
    have hheldNone : x.held = none := hst.elim (hnone · (by simp)) (hnone · (by simp))
    have hzero : x.rate = 0 ∧ x.frac = 0 := hrest (by obtain h | h := hst <;> simp [h]) (by obtain h | h := hst <;> simp [h])
    exact ratesInRange_of_rest (fun h => absurd hheldNone h) hheldRate hconfig hmark rfl hzero.1 hzero.2
  | reset =>
    exact ratesInRange_of_rest (fun h => absurd rfl h) (fun h hh => by simp [AxisBlock.afterReset, AxisBlock.reset] at hh)
      (show firstFailing AxisConfig.reset = none by decide) rfl rfl rfl rfl
  | _ => exact ⟨hheld, hheldRate, hconfig, hmark, hfrac, hrest, hrun, hramp⟩

/-- Settles O4: every primitive change of a block keeps the rate and the fraction in range. -/
theorem ratesStayInRange : Obligations.RatesStayInRange :=
  fun _ _ hs hstep => step_axis_keeps (fun _ _ h k => ratesInRange_step h k) hstep hs

end Sys2Proof.Machine
end

section
/-! PROOFS. The invariants of a group and of the rings: every primitive change keeps them. -/

namespace Sys2Proof.Machine
open Sys2Proof

/-! ### Groups -/

theorem setHas_setInsert (m : AxisSet) (a b : Axis) : setHas (setInsert m a) b = (setHas m b || decide (b = a)) := by
  revert m a b
  decide

theorem setInsert_ne_zero (m : AxisSet) (a : Axis) : setInsert m a ≠ 0 := by
  revert m a
  decide

theorem setHas_zero (a : Axis) : setHas 0 a = false := by
  revert a
  decide

/-- A group whose arrived set is empty is well kept where it is not GATHERING, and not FREE unless at its reset values. -/
theorem wellKept_of_arrived_zero {x : Group} (h : x.arrived = 0) (hst : x.st ≠ .gathering)
    (hfree : x.st = .free → x = Group.reset) : x.WellKept :=
  ⟨fun a ha => by rw [h, setHas_zero] at ha; exact absurd ha (by simp), by simp [h, hst], hfree⟩

theorem wellKept_step {x y : Group} (h : GroupStep x y) (k : x.WellKept) : y.WellKept := by
  cases h with
  | arrive a hst hmem =>
    refine ⟨fun b hb => ?_, ⟨fun _ => setInsert_ne_zero _ _, fun _ => rfl⟩, fun h => by simp [Group.arrive] at h⟩
    obtain hb | rfl := by simpa [Group.arrive, setHas_setInsert] using hb
    · exact k.arrived b hb
    · exact hmem
  | release =>
    unfold Group.released
    split
    next => exact wellKept_of_arrived_zero rfl (by simp) (by simp)
    next => exact wellKept_of_arrived_zero rfl (by simp [Group.reset]) fun _ => rfl
  | define m r t => exact wellKept_of_arrived_zero rfl (by simp [definedGroup]) (by simp [definedGroup])
  | free => exact wellKept_of_arrived_zero rfl (by simp [Group.reset]) fun _ => rfl
  | tick =>
    unfold Group.tick
    split
    next hst => exact ⟨k.arrived, k.gathering, fun h => by simp [hst] at h⟩
    next => exact k
  | _ => exact wellKept_of_arrived_zero rfl (by simp) (by simp)  -- a break, whose constructor's name is a Lean keyword

/-- Settles O8: every primitive change of a group entry keeps it well kept. -/
theorem groupsStayWellKept : Obligations.GroupsStayWellKept :=
  fun _ _ hs hstep => step_group_keeps (fun _ _ h k => wellKept_step h k) hstep hs

/-! ### Rings -/

/-- `RingsInRange` on the rings alone. -/
structure Rings.InRange (x : Rings) : Prop where
  fetchers : ∀ r : Fin 5, indicesIn x.fetchers[r].size x.fetchers[r].head x.fetchers[r].tail
  writer : indicesIn x.writer.size x.writer.hostHead x.writer.tail
  port : ∀ e a v, x.port = some (.report e a v) → 0 < x.writer.size

theorem ringsInRange_iff (s : State) : s.RingsInRange ↔ s.rings.InRange :=
  ⟨fun ⟨hf, hw, hp⟩ => ⟨hf, hw, hp⟩, fun ⟨hf, hw, hp⟩ => ⟨hf, hw, hp⟩⟩

theorem ringNext_lt {size : Nat} (i : Nat) (h : 0 < size) : ringNext i size < size := Nat.mod_lt _ h

theorem indicesIn_step {x y : Fetcher} (h : FetchStep x y) (k : indicesIn x.size x.head x.tail) :
    indicesIn y.size y.head y.tail := by
  cases h with
  | setHead =>
    unfold indicesIn at k
    unfold Fetcher.setHead Fetcher.cancel indicesIn
    dsimp only
    omega
  | post t ht =>
    unfold indicesIn at k ⊢
    dsimp only
    omega
  | take hne =>
    have hsize : 0 < x.size := by
      unfold indicesIn at k
      omega
    have hnext := ringNext_lt x.head hsize
    unfold indicesIn at k ⊢
    dsimp only
    omega
  | _ => exact k

theorem setupSize_pos_of_judge {l : List Block32} {rs : List (Fin 6)} (h : judgeSetup l rs = .none) {r : Fin 6} (hr : r ∈ rs) :
    0 < setupSize l r := by
  induction rs with
  | nil => simp at hr
  | cons q rs ih =>
    unfold judgeSetup at h
    split at h
    next => simp at h
    next hsize =>
      split at h
      next => simp at h
      next =>
        obtain rfl | hr := List.mem_cons.mp hr
        · rw [not_not] at hsize
          rw [Nat.pos_iff_ne_zero]
          intro hzero
          simp [hzero, ringSizes] at hsize
        · exact ih h hr

theorem mem_allRings (r : Fin 6) : r ∈ allRings := by
  revert r
  decide

theorem ringsInRange_step {x y : Rings} (h : RingStep x y) (k : x.InRange) : y.InRange := by
  obtain ⟨hfetchers, hwriter, hport⟩ := k
  cases h with
  | fetcher r f hstep =>
    refine ⟨fun q => ?_, hwriter, hport⟩
    by_cases hq : r = q
    · subst hq
      simpa using indicesIn_step hstep (hfetchers r)
    · have hne : r.val ≠ q.val := fun h => hq (Fin.ext h)
      simpa [Vector.getElem_set_ne, hne] using hfetchers q
  | port p hp => exact ⟨hfetchers, hwriter, hp⟩
  | release head hhead =>
    refine ⟨hfetchers, ?_, hport⟩
    unfold indicesIn at hwriter ⊢
    dsimp only
    omega
  | written e a v hv =>
    refine ⟨hfetchers, ?_, by simp⟩
    have hnext := ringNext_lt x.writer.tail (hport e a v hv)
    unfold indicesIn at hwriter ⊢
    dsimp only
    omega
  | flight o => exact ⟨hfetchers, hwriter, hport⟩
  | online l hl =>
    have hpos : ∀ r, 0 < setupSize l r := fun r => setupSize_pos_of_judge hl (mem_allRings r)
    refine ⟨fun q => .inl ?_, .inl ⟨hpos 5, hpos 5⟩, fun _ _ _ _ => hpos 5⟩
    simp [onlineFetcher, hpos]
  | reset => exact ⟨fun q => .inr (by simp [Fetcher.reset]), .inr ⟨rfl, rfl, rfl⟩, by simp⟩

/-- Settles O9: every primitive change of the rings keeps their indices in range. -/
theorem ringIndicesStayInRange : Obligations.RingIndicesStayInRange := by
  intro s t hs hstep
  rw [ringsInRange_iff] at hs ⊢
  exact step_rings_keeps (fun _ _ h k => ringsInRange_step h k) hstep hs

end Sys2Proof.Machine
end

section
/-! PROOFS. What every operation inside a command leaves: the queue, the port, no staging queue longer, and no entry claimed where the
interpreter has no record in hand. -/

namespace Sys2Proof.Machine
open Sys2Proof

/-- An entry is claimed for a record in hand alone (log entry 7). -/
def State.ClaimFits (s : State) : Prop := s.interp = .waiting → s.claim = none

/-- No read of an axis ring is on the port. -/
def State.NoAxisRead (s : State) : Prop := ∀ a ad, s.port ≠ some (.fetchRead (axisRing a) ad)

/-- The queue is kept, no staging queue grows and no read of an axis ring begins. -/
structure Quiet (s t : State) : Prop where
  pending : t.pending = s.pending
  port : t.port = s.port ∨ t.NoAxisRead
  staging : ∀ a, (t.axis a).staging.length ≤ (s.axis a).staging.length

/-- What the operations inside a command keep, all but the delivery of a record to a staging queue and the grant of its read. -/
structure Calm (s t : State) : Prop extends Quiet s t where
  claim : s.ClaimFits → t.ClaimFits

/-! ### Chains -/

theorem Quiet.trans {s t u : State} (h : Quiet s t) (k : Quiet t u) : Quiet s u := by
  refine ⟨k.pending.trans h.pending, ?_, fun a => (k.staging a).trans (h.staging a)⟩
  obtain hkept | hnone := k.port
  · exact h.port.imp hkept.trans fun hnone a ad => hkept ▸ hnone a ad
  · exact .inr hnone

theorem Calm.refl (s : State) : Calm s s := ⟨⟨rfl, .inl rfl, fun _ => le_rfl⟩, id⟩

theorem Calm.trans {s t u : State} (h : Calm s t) (k : Calm t u) : Calm s u :=
  ⟨h.toQuiet.trans k.toQuiet, k.claim ∘ h.claim⟩

theorem Quiet.of_axes {s t : State} (hp : t.pending = s.pending) (hq : t.port = s.port ∨ t.NoAxisRead) (ha : t.axes = s.axes) :
    Quiet s t := ⟨hp, hq, fun a => by rw [State.axis, State.axis, ha]⟩

theorem Calm.of_axes {s t : State} (hp : t.pending = s.pending) (hq : t.port = s.port) (ha : t.axes = s.axes)
    (hi : t.interp = s.interp) (hc : t.claim = s.claim) : Calm s t :=
  ⟨.of_axes hp (.inl hq) ha, fun h => by rwa [State.ClaimFits, hi, hc]⟩

theorem Calm.modAxis (s : State) (a : Axis) {f : AxisBlock → AxisBlock}
    (h : (f (s.axis a)).staging.length ≤ (s.axis a).staging.length) : Calm s (s.modAxis a f) := by
  refine ⟨⟨rfl, .inl rfl, fun b => ?_⟩, id⟩
  rw [State.modAxis_axis]
  split
  next hb => exact hb ▸ h
  next => exact le_rfl

theorem Calm.mapAxes (s : State) {f : AxisBlock → AxisBlock}
    (h : ∀ x : AxisBlock, (f x).staging.length ≤ x.staging.length) : Calm s (s.mapAxes f) :=
  ⟨⟨rfl, .inl rfl, fun a => by rw [State.mapAxes_axis]; exact h _⟩, id⟩

theorem Calm.setEntry (s : State) (e : Fin 24) (v : Entry) : Calm s (s.setEntry e v) := .of_axes rfl rfl rfl rfl rfl

theorem Calm.modGroup (s : State) (g : GroupIx) (f : Group → Group) : Calm s (s.modGroup g f) := .of_axes rfl rfl rfl rfl rfl

theorem Calm.modFetcher (s : State) (r : Fin 5) (f : Fetcher → Fetcher) : Calm s (s.modFetcher r f) :=
  .of_axes rfl rfl rfl rfl rfl

theorem Calm.freeCount (s : State) (n : Nat) : Calm s { s with freeCount := n } := .of_axes rfl rfl rfl rfl rfl

theorem Calm.foldl {α : Type} {f : α → State → State} (h : ∀ x s, Calm s (f x s)) (l : List α) (s : State) :
    Calm s (l.foldl (fun t x => f x t) s) := by
  induction l generalizing s with
  | nil => exact .refl s
  | cons x l ih => exact (h x s).trans (ih _)

theorem Calm.inSomeOrder {α : Type} {f : α → State → State} (h : ∀ x s, Calm s (f x s)) (l : List α) (s : State) :
    Calm s (Machine.inSomeOrder l f s) := (Calm.freeCount s _).trans (Calm.foldl h _ _)

/-! ### The completion buffer -/

theorem fill_calm (e : Fin 24) (r : Report) (s : State) : Calm s (fill e r s) := by
  unfold fill
  split
  next => exact .refl s
  next => exact .of_axes rfl rfl rfl rfl rfl

/-- A claim is made while a record is in hand alone. -/
theorem release_calm (e : Fin 24) (s : State) : Calm s (release e s) := by
  unfold release
  split
  next hwants =>
    split
    next => exact ⟨.of_axes rfl (.inl rfl) rfl, fun _ (hi : s.interp = _) => by simp [hi, Interp.wantsGeneral] at hwants⟩
    next => exact .of_axes rfl rfl rfl rfl rfl
  next => exact .setEntry s e _

theorem takeGeneral_calm {h : Holder} {s t : State} {e : Fin 24} (k : takeGeneral h s = some (e, t)) : Calm s t := by
  rw [(takeGeneral_eq k).1]
  exact .setEntry s e _

/-! ### The sequencers -/

theorem reportSegment_calm (a : Axis) (r : AxisRecord) (e : Fin 24) (st : Status) (c : Option FaultCause) (w : Word × Word)
    (s : State) : Calm s (reportSegment a r e st c w s) := by
  unfold reportSegment
  split
  next => exact fill_calm ..
  next => exact release_calm ..

theorem retireActive_calm (a : Axis) (st : Status) (c : Option FaultCause) (w : Segment → Word × Word) (s : State) :
    Calm s (retireActive a st c w s) := by
  unfold retireActive
  split
  next => exact .refl s
  next => exact (reportSegment_calm ..).trans (.modAxis _ a le_rfl)

theorem retireHeld_calm (a : Axis) (st : Status) (c : Option FaultCause) (s : State) : Calm s (retireHeld a st c s) := by
  unfold retireHeld
  split
  next => exact .refl s
  next => exact (reportSegment_calm ..).trans (.modAxis _ a le_rfl)

theorem retireCurrent_calm (a : Axis) (st : Status) (c : Option FaultCause) (s : State) : Calm s (retireCurrent a st c s) :=
  (retireActive_calm ..).trans (retireHeld_calm ..)

theorem failStopReq_calm (a : Axis) (c : FaultCause) (s : State) : Calm s (failStopReq a c s) := by
  unfold failStopReq
  split
  next => exact .refl s
  next => exact (fill_calm ..).trans (.modAxis _ a le_rfl)

theorem haltCore_calm (a : Axis) (c : FaultCause) (id : RecId) (s : State) : Calm s (haltCore a c id s) :=
  ((Calm.modAxis s a (f := AxisBlock.still) le_rfl).trans ((retireCurrent_calm ..).trans (failStopReq_calm ..))).trans
    ((Calm.modAxis _ a (Nat.zero_le _)).trans ((Calm.modFetcher ..).trans (fill_calm ..)))

theorem haltMember_calm (a : Axis) (s : State) : Calm s (haltMember a s) := by
  unfold haltMember
  split
  next => exact .refl s
  next => exact haltCore_calm ..

theorem breakGroup_calm (g : GroupIx) (m : AxisSet) (s : State) : Calm s (breakGroup g m s) := by
  unfold breakGroup
  dsimp only
  split
  next => exact .modGroup s g _
  next => exact (Calm.modGroup s g _).trans (.inSomeOrder haltMember_calm _ _)

theorem depart_calm (g? : Option GroupIx) (a : Axis) (s : State) : Calm s (depart g? a s) := by
  unfold depart
  split
  next => exact .refl s
  next =>
    split
    next => exact breakGroup_calm ..
    next => exact .refl s

theorem haltAxis_calm (a : Axis) (c : FaultCause) (id : RecId) (s : State) : Calm s (haltAxis a c id s) :=
  (haltCore_calm ..).trans (depart_calm ..)

theorem haltCurrent_calm (a : Axis) (c : FaultCause) (s : State) : Calm s (haltCurrent a c s) := haltAxis_calm ..

theorem restInstant_calm (a : Axis) (q : StopReq) (s : State) : Calm s (restInstant a q s) :=
  ((retireCurrent_calm ..).trans ((Calm.modAxis _ a (Nat.zero_le _)).trans (.modFetcher ..))).trans
    ((fill_calm ..).trans ((Calm.modAxis _ a le_rfl).trans (depart_calm ..)))

theorem startMove_calm (a : Axis) (m : Move) (s : State) : Calm s (startMove a m s) := by
  unfold startMove
  split
  next => exact haltCore_calm ..
  next => exact .modAxis s a le_rfl

theorem completeWait_calm (a : Axis) (w : Wait) (s : State) : Calm s (completeWait a w s) := by
  unfold completeWait
  dsimp only
  refine (Calm.modAxis s a ?_).trans ((retireActive_calm ..).trans (.modAxis _ a le_rfl))
  obtain ⟨_, _, _, heq, -⟩ := ((s.axis a).setLatch w.src Latch.clear).applyRef_eq w
  rw [heq]
  exact le_rfl

theorem releaseMember_calm (a : Axis) (s : State) : Calm s (releaseMember a s) := by
  unfold releaseMember
  split
  next => exact .refl s
  next h _ =>
    have hunhold : Calm s ((s.modAxis a (unhold h)).setEntry h.entry (.reserved (.axisRecord a))) :=
      (Calm.modAxis s a le_rfl).trans (.setEntry ..)
    dsimp only
    split
    next => exact hunhold.trans (startMove_calm ..)
    next => exact hunhold.trans (.modAxis _ a le_rfl)

theorem releaseGroup_calm (g : GroupIx) (s : State) : Calm s (releaseGroup g s) :=
  (Calm.modGroup s g _).trans ((Calm.foldl releaseMember_calm _ _).trans (.inSomeOrder releaseMember_calm _ _))

theorem arrive_calm (a : Axis) (g : GroupIx) (r : AxisRecord) (e : Fin 24) (s : State) : Calm s (arrive a g r e s) := by
  have harrived := (Calm.modAxis s a (f := fun x => { x with
    staging := x.staging.tail, held := some { record := r, group := g, entry := e }, st := .waitSync })
    (by simp)).trans (.modGroup _ g (Group.arrive a))
  unfold arrive
  dsimp only
  split
  next => exact harrived.trans (releaseGroup_calm ..)
  next => exact harrived

theorem judgeTagged_calm (a : Axis) (g : GroupIx) (r : AxisRecord) (s : State) : Calm s (judgeTagged a g r s) := by
  unfold judgeTagged
  split
  next => exact haltAxis_calm ..
  next =>
    split
    next => exact haltAxis_calm ..
    next =>
      split
      next => exact .refl s
      next hk => exact (takeGeneral_calm hk).trans (arrive_calm ..)

theorem cancelForOff_calm (s : State) : Calm s (cancelForOff s) :=
  Calm.foldl (f := fun a t => if (s.axis a).st = .off then t else t.modFetcher (axisRing a) Fetcher.cancel)
    (fun a t => by
      split
      next => exact .refl t
      next => exact .modFetcher ..) _ _

theorem offIfAtRest_calm (s : State) : Calm s (offIfAtRest s) := by
  unfold offIfAtRest
  split
  next =>
    refine (cancelForOff_calm s).trans (.mapAxes _ fun x => ?_)
    by_cases hoff : x.st = .off
    · rw [AxisBlock.toOff_of_off hoff]
      exact le_rfl
    · rw [AxisBlock.toOff_of_ne hoff]
      exact Nat.zero_le _
  next => exact .refl s

/-! ### The control records -/

theorem complete_calm (c : CtlRecord) (e : Fin 24) (st : Status) (n k : Nat) (x y : Word) (s : State) :
    Calm s (complete c e st n k x y s) := fill_calm ..

theorem completePlain_calm (c : CtlRecord) (e : Fin 24) (st : Status) (s : State) : Calm s (completePlain c e st s) :=
  fill_calm ..

theorem acceptConfigureAxis_calm (c : CtlRecord) (e : Fin 24) (a : Axis) (cfg : AxisConfig) (s : State) :
    Calm s (acceptConfigureAxis c e a cfg s) := by
  unfold acceptConfigureAxis
  split
  next =>
    split
    next => exact complete_calm ..
    next => exact (Calm.modAxis s a le_rfl).trans (completePlain_calm ..)
  next => exact completePlain_calm ..

theorem restartSlowClock_calm (cfg : InputsConfig) (s : State) : Calm s (restartSlowClock cfg s) := by
  unfold restartSlowClock
  split
  next => exact .refl s
  next => exact .of_axes rfl rfl rfl rfl rfl

theorem setInputs_calm (cfg : InputsConfig) (l : Vector LineState 28) (s : State) :
    Calm s { s with inputs := cfg, lines := l } := .of_axes rfl rfl rfl rfl rfl

theorem acceptConfigureInputs_calm (c : CtlRecord) (e : Fin 24) (cfg : InputsConfig) (s : State) :
    Calm s (acceptConfigureInputs c e cfg s) := by
  unfold acceptConfigureInputs
  split
  next => exact ((restartSlowClock_calm cfg s).trans (setInputs_calm ..)).trans (completePlain_calm ..)
  next => exact completePlain_calm ..

theorem acceptEnableAxis_calm (c : CtlRecord) (e : Fin 24) (a : Axis) (s : State) : Calm s (acceptEnableAxis c e a s) := by
  unfold acceptEnableAxis
  split
  next => exact (Calm.modAxis s a le_rfl).trans (completePlain_calm ..)
  next => exact completePlain_calm ..

theorem disableNow_calm (c : CtlRecord) (e : Fin 24) (a : Axis) (s : State) : Calm s (disableNow c e a s) :=
  ((Calm.modAxis s a (Nat.zero_le _)).trans (.modFetcher ..)).trans (complete_calm ..)

theorem acceptDisableAxis_calm (c : CtlRecord) (e : Fin 24) (a : Axis) (s : State) :
    Calm s (acceptDisableAxis c e a s) := by
  unfold acceptDisableAxis
  split
  next => exact disableNow_calm ..
  next =>
    split
    next => exact disableNow_calm ..
    next => exact completePlain_calm ..
  next => exact completePlain_calm ..

theorem acceptClearFault_calm (c : CtlRecord) (e : Fin 24) (a : Axis) (r l : Bool) (s : State) :
    Calm s (acceptClearFault c e a r l s) := by
  have hcleared : Calm s (s.modAxis a (AxisBlock.cleared l)) := .modAxis s a le_rfl
  unfold acceptClearFault
  split
  next =>
    split
    next =>
      dsimp only
      split
      next => exact hcleared.trans (complete_calm ..)
      next => exact (hcleared.trans (.modFetcher ..)).trans (complete_calm ..)
    next => exact completePlain_calm ..
  next => exact completePlain_calm ..

theorem pendStop_calm (a : Axis) (q : StopReq) (s : State) : Calm s (pendStop a q s) :=
  (Calm.modAxis s a le_rfl).trans (.setEntry ..)

theorem acceptStopAxis_calm (c : CtlRecord) (e : Fin 24) (a : Axis) (d : Option Nat) (s : State) :
    Calm s (acceptStopAxis c e a d s) := by
  unfold acceptStopAxis
  dsimp only
  split
  next => exact completePlain_calm ..
  next => exact completePlain_calm ..
  next => exact (pendStop_calm ..).trans (.modAxis _ a le_rfl)
  next => exact (pendStop_calm ..).trans (.modAxis _ a le_rfl)
  next => exact restInstant_calm ..

theorem acceptAbortAxis_calm (c : CtlRecord) (e : Fin 24) (a : Axis) (s : State) : Calm s (acceptAbortAxis c e a s) := by
  unfold acceptAbortAxis
  dsimp only
  split
  next => exact completePlain_calm ..
  next => exact completePlain_calm ..
  next => exact (Calm.modAxis s a le_rfl).trans (restInstant_calm ..)

theorem acceptDefineGroup_calm (c : CtlRecord) (e : Fin 24) (g : GroupIx) (m : AxisSet) (r : Bool) (t : Option Nat)
    (s : State) : Calm s (acceptDefineGroup c e g m r t s) := by
  unfold acceptDefineGroup
  dsimp only
  split
  next => exact complete_calm ..
  next => exact (Calm.modGroup s g _).trans (complete_calm ..)

theorem acceptClearGroup_calm (c : CtlRecord) (e : Fin 24) (g : GroupIx) (s : State) : Calm s (acceptClearGroup c e g s) := by
  unfold acceptClearGroup
  dsimp only
  refine Calm.trans ?_ ((Calm.modGroup _ g _).trans (complete_calm ..))
  split
  next => exact breakGroup_calm ..
  next => exact .refl s

theorem acceptCaptureArm_calm (c : CtlRecord) (e : Fin 24) (a : Axis) (src : Source) (n : Option Nat) (s : State) :
    Calm s (acceptCaptureArm c e a src n s) := by
  unfold acceptCaptureArm
  dsimp only
  split
  next => exact complete_calm ..
  next => exact (Calm.modAxis s a le_rfl).trans (complete_calm ..)

theorem acceptCaptureDisarm_calm (c : CtlRecord) (e : Fin 24) (a : Axis) (s : State) :
    Calm s (acceptCaptureDisarm c e a s) := (Calm.modAxis s a le_rfl).trans (complete_calm ..)

theorem acceptInvalid_calm (c : CtlRecord) (e : Fin 24) (s : State) : Calm s (acceptInvalid c e s) := by
  unfold acceptInvalid
  split
  next => exact fill_calm ..
  next => exact completePlain_calm ..

theorem accept_calm (c : CtlRecord) (e : Fin 24) (s : State) : Calm s (accept c e s) := by
  unfold accept
  split
  next => exact acceptConfigureAxis_calm ..
  next => exact acceptConfigureInputs_calm ..
  next => exact acceptEnableAxis_calm ..
  next => exact acceptDisableAxis_calm ..
  next => exact acceptStopAxis_calm ..
  next => exact acceptAbortAxis_calm ..
  next => exact acceptClearFault_calm ..
  next => exact acceptDefineGroup_calm ..
  next => exact acceptClearGroup_calm ..
  next => exact acceptCaptureArm_calm ..
  next => exact acceptCaptureDisarm_calm ..
  next => exact fill_calm ..
  next => exact completePlain_calm ..
  next => exact acceptInvalid_calm ..

theorem restartSlowClock_interp (cfg : InputsConfig) (s : State) : (restartSlowClock cfg s).interp = s.interp := by
  unfold restartSlowClock
  split <;> rfl

theorem completePlain_interp (c : CtlRecord) (e : Fin 24) (st : Status) (s : State) :
    (completePlain c e st s).interp = s.interp := (completePlain_seq c e st s).rest.interp

theorem acceptConfigureInputs_interp (c : CtlRecord) (e : Fin 24) (cfg : InputsConfig) (s : State) :
    (acceptConfigureInputs c e cfg s).interp = s.interp := by
  unfold acceptConfigureInputs
  split
  next =>
    refine (completePlain_interp c e .ok _).trans ?_
    exact restartSlowClock_interp cfg s
  next => exact completePlain_interp ..

/-- No accepted record changes what the interpreter has in hand. -/
theorem accept_interp (c : CtlRecord) (e : Fin 24) (s : State) : (accept c e s).interp = s.interp := by
  unfold accept
  split
  next => exact (acceptConfigureAxis_seq ..).rest.interp
  next => exact acceptConfigureInputs_interp ..
  next => exact (acceptEnableAxis_seq ..).rest.interp
  next => exact (acceptDisableAxis_seq ..).rest.interp
  next => exact (acceptStopAxis_seq ..).rest.interp
  next => exact (acceptAbortAxis_seq ..).rest.interp
  next => exact (acceptClearFault_seq ..).rest.interp
  next => exact (acceptDefineGroup_seq ..).rest.interp
  next => exact (acceptClearGroup_seq ..).rest.interp
  next => exact (acceptCaptureArm_seq ..).rest.interp
  next => exact (acceptCaptureDisarm_seq ..).rest.interp
  next => exact (acceptReadStatus_seq ..).rest.interp
  next => exact (completePlain_seq ..).rest.interp
  next => exact (acceptInvalid_seq ..).rest.interp

/-- A record accepted with no entry claimed leaves the interpreter waiting and no entry claimed. -/
theorem accept_claim (c : CtlRecord) (e : Fin 24) {s : State} (hi : s.interp = .waiting) (hc : s.claim = none) :
    (accept c e s).claim = none := (accept_calm c e s).claim (fun _ => hc) ((accept_interp c e s).trans hi)

/-- The interpreter turns to waiting with no entry claimed. -/
theorem Calm.waiting {s : State} {cl : Option (Fin 24)} (h : s.ClaimFits → cl = none) :
    Calm s { s with interp := .waiting, claim := cl } := ⟨.of_axes rfl (.inl rfl) rfl, fun hs _ => h hs⟩

theorem judgeRecord_quiet (c : CtlRecord) (s : State) : Quiet s (judgeRecord c s) := by
  have hwaiting : Quiet s { s with interp := .waiting } := .of_axes rfl (.inl rfl) rfl
  unfold judgeRecord
  split
  next => exact .of_axes rfl (.inl rfl) rfl
  next => exact hwaiting.trans (accept_calm ..).toQuiet
  next => exact hwaiting.trans ((Calm.setEntry ..).trans (accept_calm ..)).toQuiet

theorem judgeRecord_claim (c : CtlRecord) {s : State} (h : s.claim = none) : (judgeRecord c s).claim = none := by
  unfold judgeRecord
  split
  next => exact h
  next => exact accept_claim _ _ rfl h
  next => exact accept_claim _ _ rfl h

theorem judgeRecord_calm (c : CtlRecord) {s : State} (h : s.claim = none) : Calm s (judgeRecord c s) :=
  ⟨judgeRecord_quiet c s, fun _ _ => judgeRecord_claim c h⟩

theorem lookAgain_calm (s : State) : Calm s (lookAgain s) := by
  unfold lookAgain
  split
  next => exact .refl s
  next c _ =>
    split
    next => exact (Calm.waiting fun _ => rfl).trans (accept_calm ..)
    next hclaim =>
      split
      next =>
        split
        next => exact (Calm.freeCount s _).trans (judgeRecord_calm _ hclaim)
        next => exact .freeCount s _
      next => exact judgeRecord_calm _ hclaim

theorem lookAgain_claim {s : State} (h : s.ClaimFits) : (lookAgain s).claim = none := by
  unfold lookAgain
  split
  next hi => exact h hi
  next =>
    split
    next => exact accept_claim _ _ rfl rfl
    next hclaim =>
      split
      next =>
        split
        next => exact judgeRecord_claim _ hclaim
        next => exact hclaim
      next => exact judgeRecord_claim _ hclaim

theorem acceptAtRelease_calm (b : Option Axis) (s : State) : Calm s (acceptAtRelease b s) := by
  unfold acceptAtRelease
  split
  next =>
    split
    next => exact .refl s
    next => exact (Calm.waiting fun _ => rfl).trans (accept_calm ..)
  next => exact .refl s

theorem settle_calm (s : State) : Calm s (settle s) :=
  (offIfAtRest_calm s).trans ((lookAgain_calm _).trans (offIfAtRest_calm _))

theorem cancelForOff_claim (s : State) : (cancelForOff s).claim = s.claim := by
  have hfold : ∀ (l : List Axis) (t : State), (l.foldl (fun t a =>
      if (s.axis a).st = .off then t else t.modFetcher (axisRing a) Fetcher.cancel) t).claim = t.claim := fun l => by
    induction l with
    | nil => exact fun _ => rfl
    | cons a l ih =>
      intro t
      rw [List.foldl_cons, ih]
      split <;> rfl
  exact hfold _ s

theorem offIfAtRest_claim (s : State) : (offIfAtRest s).claim = s.claim := by
  unfold offIfAtRest
  split
  next => exact cancelForOff_claim s
  next => rfl

theorem settle_claim {s : State} (h : s.ClaimFits) : (settle s).claim = none :=
  (offIfAtRest_claim _).trans (lookAgain_claim ((offIfAtRest_calm s).claim h))

/-! ### The work of an expiry -/

theorem activate_calm (a : Axis) (r : AxisRecord) (e : Fin 24) (s : State) : Calm s (activate a r e s) :=
  .modAxis s a (by simp)

theorem runActivated_calm (a : Axis) (r : AxisRecord) (s : State) : Calm s (runActivated a r s).1 := by
  unfold runActivated
  split
  next => exact startMove_calm ..
  next => exact Calm.modAxis s a (f := fun x => { x with st := .dwell }) le_rfl
  next w _ =>
    split
    next => exact completeWait_calm ..
    next =>
      refine Calm.modAxis s a (f := fun x =>
        { (if w.policy = .fresh then x.setLatch w.src Latch.clear else x) with st := .waitEvent }) ?_
      dsimp only
      split <;> exact le_rfl
  next c e _ =>
    refine (Calm.modAxis s a ?_).trans (retireActive_calm ..)
    obtain ⟨_, _, _, heq, -⟩ := (s.axis a).applySetpos_eq c e
    exact heq ▸ le_rfl
  next => exact retireActive_calm ..
  next => exact .refl s

theorem considerQueue_calm (a : Axis) (n : Nat) (s : State) : Calm s (considerQueue a n s) := by
  induction n generalizing s with
  | zero => exact .refl s
  | succ n ih =>
    unfold considerQueue
    split
    next =>
      split
      next => exact .refl s
      next r _ _ =>
        split
        next => exact haltAxis_calm ..
        next =>
          split
          next => exact judgeTagged_calm ..
          next =>
            split
            next => exact .refl s
            next e s1 hk =>
              have hrun := ((takeGeneral_calm hk).trans (activate_calm a r e s1)).trans (runActivated_calm a r _)
              dsimp only
              split
              next => exact hrun.trans ((acceptAtRelease_calm ..).trans (ih _))
              next => exact hrun
    next => exact .refl s

theorem becomeIdle_calm (a : Axis) (s : State) : Calm s (becomeIdle a s) :=
  (Calm.modAxis s a le_rfl).trans (considerQueue_calm ..)

theorem passMarks_calm (a : Axis) (n : Nat) (s : State) : Calm s (passMarks a n s).1 := by
  induction n generalizing s with
  | zero => exact .refl s
  | succ n ih =>
    unfold passMarks
    split
    next => exact .refl s
    next =>
      split
      next =>
        split
        next => exact .refl s
        next hk => exact (takeGeneral_calm hk).trans ((activate_calm ..).trans ((retireActive_calm ..).trans (ih _)))
      next => exact .refl s

theorem judgeJoin_calm (a : Axis) (id : RecId) (s : State) : Calm s (judgeJoin a id s) := by
  unfold judgeJoin
  split
  next => exact haltAxis_calm ..
  next =>
    split
    next => exact haltAxis_calm ..
    next =>
      split
      next => exact haltAxis_calm ..
      next =>
        split
        next =>
          split
          next => exact haltAxis_calm ..
          next hk =>
            split
            next => exact haltAxis_calm ..
            next => exact (takeGeneral_calm hk).trans ((activate_calm ..).trans (.modAxis _ a le_rfl))
        next => exact haltAxis_calm ..

theorem continueJoin_calm (a : Axis) (id : RecId) (s : State) : Calm s (continueJoin a id s) := by
  unfold continueJoin
  dsimp only
  split
  next => exact (passMarks_calm ..).trans (haltAxis_calm ..)
  next => exact (passMarks_calm ..).trans (judgeJoin_calm ..)

theorem restExit_calm (a : Axis) (id : RecId) (s : State) : Calm s (restExit a id s) := by
  have hzero := Calm.modAxis s a (f := fun x => { x with rate := 0, frac := 0, periodSteps := 0 }) le_rfl
  unfold restExit
  dsimp only
  split
  next => exact hzero.trans (haltAxis_calm ..)
  next => exact hzero.trans (becomeIdle_calm ..)

theorem retireThen_calm (a : Axis) (w : Segment → Word × Word) {next : State → State} (h : ∀ u, Calm u (next u)) (s : State) :
    Calm s (retireThen a w next s) := by
  have hretired := (retireActive_calm a .ok none w s).trans (acceptAtRelease_calm (some a) _)
  unfold retireThen
  dsimp only
  split
  next => exact hretired.trans (h _)
  next => exact hretired

theorem endMove_calm (a : Axis) (g : Segment) (m : Move) (s : State) : Calm s (endMove a g m s) := by
  unfold endMove
  dsimp only
  split
  next => exact retireThen_calm a _ (restExit_calm a _) s
  next => exact (retireActive_calm ..).trans ((continueJoin_calm ..).trans (acceptAtRelease_calm ..))

theorem runWork_calm (a : Axis) (s : State) : Calm s (runWork a s) := by
  unfold runWork
  split
  next => exact .refl s
  next =>
    split
    next =>
      split
      next => exact endMove_calm ..
      next => exact .modAxis s a le_rfl
    next => exact .refl s

theorem rampRest_calm (a : Axis) (s : State) : Calm s (rampRest a s) := by
  unfold rampRest
  split
  next => exact .modAxis s a le_rfl
  next =>
    split
    next => exact restInstant_calm ..
    next => exact (retireCurrent_calm ..).trans (.modAxis _ a le_rfl)

theorem rampWork_calm (a : Axis) (s : State) : Calm s (rampWork a s) := by
  have hramp : Calm s (s.modAxis a AxisBlock.rampPeriod) := by
    obtain ⟨_, _, _, _, _, heq, -⟩ := (s.axis a).rampPeriod_eq
    refine .modAxis s a ?_
    rw [heq]
  unfold rampWork
  dsimp only
  split
  next => exact hramp.trans (rampRest_calm ..)
  next => exact hramp

theorem dwellWork_calm (a : Axis) (s : State) : Calm s (dwellWork a s) := by
  have hcount := Calm.modAxis s a (f := AxisBlock.countExpiry) le_rfl
  unfold dwellWork
  dsimp only
  split
  next =>
    split
    next => exact hcount.trans (retireThen_calm a _ (becomeIdle_calm a) _)
    next => exact hcount
  next => exact hcount

theorem waitWork_calm (a : Axis) (s : State) : Calm s (waitWork a s) := by
  have hcount := Calm.modAxis s a (f := AxisBlock.countExpiry) le_rfl
  unfold waitWork
  dsimp only
  split
  next =>
    split
    next => exact hcount.trans ((retireActive_calm ..).trans (becomeIdle_calm ..))
    next => exact hcount
  next => exact hcount

theorem stateWork_calm (a : Axis) (s : State) : Calm s (stateWork a s) := by
  unfold stateWork
  split
  next => exact .refl s
  next => exact considerQueue_calm ..
  next => exact runWork_calm ..
  next => exact dwellWork_calm ..
  next => exact waitWork_calm ..
  next => exact .refl s
  next => exact rampWork_calm ..
  next => exact .refl s

theorem expiryWork_calm (a : Axis) (s : State) : Calm s (expiryWork a s) := by
  unfold expiryWork
  split
  next =>
    split
    next => exact rampWork_calm ..
    next => exact .refl s
  next =>
    split
    next =>
      obtain ⟨_, _, heq, -⟩ := (s.axis a).checkHalted_eq
      refine .modAxis s a ?_
      rw [heq]
    next =>
      split
      next => exact haltCurrent_calm ..
      next => exact stateWork_calm ..

theorem countTimeouts_calm (l : List GroupIx) (s : State) : Calm s (countTimeouts l s) :=
  (Calm.foldl (f := fun g t => t.modGroup g Group.tick) (fun g t => .modGroup t g _) l s).trans
    (.inSomeOrder (fun g t => breakGroup_calm g _ t) _ _)

/-! ### Inputs -/

theorem setLevel_calm (l : Line) (high : Bool) (s : State) : Calm s (setLevel l high s) := .of_axes rfl rfl rfl rfl rfl

theorem limitAct_calm (a : Axis) (side : Side) (high : Bool) (s : State) : Calm s (limitAct a side high s) := by
  unfold limitAct
  split
  next =>
    split
    next => exact .modAxis s a le_rfl
    next => exact haltCurrent_calm ..
  next => exact .refl s

theorem encoderAct_calm (a : Axis) (s : State) : Calm s (encoderAct a s) := .modAxis s a le_rfl

theorem quadErrorAct_calm (a : Axis) (s : State) : Calm s (quadErrorAct a s) := by
  have hcount := Calm.modAxis s a (f := fun x => { x with
    quadErrs := satInc x.quadErrs, quadA := (quadLevels s a).1, quadB := (quadLevels s a).2 }) le_rfl
  unfold quadErrorAct
  dsimp only
  split
  next => exact hcount.trans (haltCurrent_calm ..)
  next => exact hcount

theorem reachLatches_calm (l : EventLine) (a : Axis) (s : State) : Calm s (reachLatches l a s) :=
  .foldl (f := fun src t => latchEvent (a, src) t) (fun _ t => .modAxis t a le_rfl) _ s

theorem captureEvent_calm (a : Axis) (s : State) : Calm s (captureEvent a s) := by
  unfold captureEvent
  dsimp only
  split
  next => exact .modAxis s a le_rfl
  next => exact (fill_calm ..).trans (.modAxis _ a le_rfl)

theorem acceptInEvent_calm (s : State) : Calm s (acceptInEvent s) := by
  unfold acceptInEvent
  split
  next => exact .refl s
  next => exact acceptAtRelease_calm ..

theorem runTaker_calm (l : EventLine) (t : EventTaker) (s : State) : Calm s (runTaker l t s) := by
  unfold runTaker
  split
  next => exact reachLatches_calm ..
  next =>
    split
    next => exact (completeWait_calm ..).trans (acceptInEvent_calm _)
    next => exact .refl s
  next =>
    split
    next => exact captureEvent_calm ..
    next => exact .refl s

theorem eventAct_calm (l : EventLine) (s : State) : Calm s (eventAct l s) :=
  ((Calm.foldl (reachLatches_calm l) _ s).trans (.inSomeOrder (runTaker_calm l) _ _)).trans (acceptAtRelease_calm ..)

theorem runDelivery_calm (d : Delivery) (s : State) : Calm s (runDelivery d s) := by
  unfold runDelivery
  split
  next => exact (setLevel_calm ..).trans (limitAct_calm ..)
  next => exact (setLevel_calm ..).trans (encoderAct_calm ..)
  next => exact ((setLevel_calm ..).trans (setLevel_calm ..)).trans (quadErrorAct_calm ..)
  next =>
    dsimp only
    split
    next => exact (setLevel_calm ..).trans (eventAct_calm ..)
    next => exact setLevel_calm ..

theorem deliverEdge_calm (d : Delivery) (s : State) : Calm s (deliverEdge d s) := by
  unfold deliverEdge
  dsimp only
  split
  next => exact ((runDelivery_calm d s).trans (.freeCount ..)).trans (settle_calm _)
  next => exact (runDelivery_calm d s).trans (.freeCount ..)

theorem notePins_calm (cls : FilterClass) (v : BitVec 28) (s : State) : Calm s (notePins cls v s) := by
  cases cls <;> exact .of_axes rfl rfl rfl rfl rfl

theorem sampleLines_calm (cls : FilterClass) (v : BitVec 28) (s : State) : Calm s (sampleLines cls v s) :=
  .foldl (f := fun l t => t.setLine l ((s.line l).sample (v.getLsbD (lineIx l).val)))
    (fun _ _ => .of_axes rfl rfl rfl rfl rfl) _ s

theorem firstQuad_calm (cls : FilterClass) (s t : State) : Calm t (firstQuad cls s t) := by
  cases cls with
  | slow => exact .refl t
  | fast =>
    exact .foldl (f := fun a u =>
        if (s.line (.encA a)).sampled && (s.line (.encB a)).sampled then u
        else u.modAxis a fun x => { x with quadA := (quadLevels t a).1, quadB := (quadLevels t a).2 })
      (fun a u => by
        split
        next => exact .refl u
        next => exact .modAxis u a le_rfl) _ t

/-- A sample before its consequences are settled. -/
def sampleEdges (cls : FilterClass) (levels : BitVec 28) (s : State) : State :=
  inSomeOrder (deliveries cls levels s) deliverEdge (firstQuad cls s (sampleLines cls levels (notePins cls levels s)))

theorem sampleNow_eq (cls : FilterClass) (levels : BitVec 28) (s : State) :
    sampleNow cls levels s = settle (sampleEdges cls levels s) := rfl

theorem sampleEdges_calm (cls : FilterClass) (levels : BitVec 28) (s : State) : Calm s (sampleEdges cls levels s) :=
  ((notePins_calm ..).trans ((sampleLines_calm ..).trans (firstQuad_calm ..))).trans (.inSomeOrder deliverEdge_calm _ _)

/-! ### Device State Control and registers -/

theorem quiesceAxis_calm (a : Axis) (s : State) : Calm s (quiesceAxis a s) := by
  unfold quiesceAxis
  split
  next => exact ((retireCurrent_calm ..).trans (.modAxis _ a le_rfl)).trans (depart_calm ..)
  next => exact .refl s

theorem mapEach_staging {s t : State} {f : AxisBlock → AxisBlock} (ht : t.axes = mapEach f s.axes)
    (hf : ∀ x : AxisBlock, (f x).staging.length ≤ x.staging.length) (a : Axis) :
    (t.axis a).staging.length ≤ (s.axis a).staging.length := by
  rw [State.axis, ht, mapEach_getElem_fin]
  exact hf _

theorem AxisBlock.failing_staging (x : AxisBlock) : x.failing.staging = x.staging := by
  unfold AxisBlock.failing AxisBlock.disarm
  dsimp only
  split <;> rfl

theorem deviceFail_calm (f : Failure) (s : State) : Calm s (deviceFail f s) := by
  unfold deviceFail
  split
  next =>
    refine Calm.trans ?_ (offIfAtRest_calm _)
    exact ⟨⟨rfl, .inl rfl, mapEach_staging rfl fun x => x.failing_staging ▸ le_rfl⟩, fun _ _ => rfl⟩
  next => exact .refl s

/-! ### A whole command -/

/-- What a whole command keeps: the queue, no entry claimed, and the bounds of the staging queues. -/
structure Done (s t : State) : Prop where
  pending : t.pending = s.pending
  claim : s.claim = none → t.claim = none
  staging : s.StagingInBounds → t.StagingInBounds

theorem Quiet.staging_inBounds {s t : State} (h : Quiet s t) (k : s.StagingInBounds) : t.StagingInBounds := by
  refine ⟨fun a => (h.staging a).trans (k.most a), fun a ad hport => ?_⟩
  obtain hkept | hnone := h.port
  · exact (h.staging a).trans_lt (k.reading a ad (hkept ▸ hport))
  · exact absurd hport (hnone a ad)

theorem Quiet.done {s t : State} (h : Quiet s t) (hc : s.claim = none → t.claim = none) : Done s t :=
  ⟨h.pending, hc, h.staging_inBounds⟩

theorem Done.refl (s : State) : Done s s := ⟨rfl, id, id⟩

theorem Done.trans {s t u : State} (h : Done s t) (k : Done t u) : Done s u :=
  ⟨k.pending.trans h.pending, k.claim ∘ h.claim, k.staging ∘ h.staging⟩

theorem Done.of_axes {s t : State} (hp : t.pending = s.pending) (hq : t.port = s.port ∨ t.NoAxisRead) (ha : t.axes = s.axes)
    (hc : t.claim = s.claim) : Done s t := (Quiet.of_axes hp hq ha).done fun h => hc.trans h

theorem Done.modAxis {s : State} {a : Axis} {f : AxisBlock → AxisBlock}
    (h : (f (s.axis a)).staging.length ≤ (s.axis a).staging.length) : Done s (s.modAxis a f) :=
  (Calm.modAxis s a h).toQuiet.done id

theorem settle_done (s : State) : Done s (settle s) :=
  (settle_calm s).toQuiet.done fun h => settle_claim fun _ => h

theorem Calm.settle_done {s t : State} (h : Calm s t) : Done s (settle t) :=
  (h.trans (settle_calm t)).toQuiet.done fun hc => settle_claim (h.claim fun _ => hc)

theorem resetBlocks_done (c : ResetCause) (s : State) : Done s (resetBlocks c s) :=
  Quiet.done ⟨rfl, .inr fun _ _ h => by simp [resetBlocks, State.reset] at h,
    fun a => by rw [resetBlocks_axis]; exact Nat.zero_le _⟩ fun _ => rfl

theorem softResetNow_done (s : State) : Done s (softResetNow s) :=
  (resetBlocks_done .soft s).trans (.of_axes rfl (.inl rfl) rfl rfl)

theorem goNow_done (s : State) : Done s (goNow s) := by
  unfold goNow
  dsimp only
  split
  next =>
    split
    next => exact .of_axes rfl (.inl rfl) rfl rfl
    next => exact .of_axes rfl (.inl rfl) rfl rfl
  next => exact .refl s

theorem haltNow_done (s : State) : Done s (haltNow s) := by
  unfold haltNow
  split
  next =>
    refine Calm.settle_done (Calm.trans ?_ (Calm.inSomeOrder quiesceAxis_calm _ _))
    refine (Calm.of_axes rfl rfl rfl rfl rfl : Calm s { s with dev := .quiescing }).trans (.mapAxes _ fun x => ?_)
    split <;> exact le_rfl
  next => exact .refl s

theorem quiesceEndNow_done (s : State) : Done s (quiesceEndNow s) := by
  unfold quiesceEndNow
  split
  next =>
    exact Quiet.done ⟨rfl, .inl rfl,
      mapEach_staging (f := fun x => { x with latches := Vector.replicate 6 Latch.clear }) rfl fun _ => le_rfl⟩ id
  next => exact .refl s

theorem deviceFail_done (f : Failure) (s : State) : Done s (deviceFail f s) := by
  refine (deviceFail_calm f s).toQuiet.done fun h => ?_
  unfold deviceFail
  split
  next => exact (offIfAtRest_claim _).trans rfl
  next => exact h

theorem tailpostNow_done (r : BitVec 3) (v : BitVec 16) (s : State) : Done s (tailpostNow r v s) := by
  unfold tailpostNow
  split
  next =>
    split
    next => exact .of_axes rfl (.inl rfl) rfl rfl
    next => exact .of_axes rfl (.inl rfl) rfl rfl
  next => exact .of_axes rfl (.inl rfl) rfl rfl

theorem cheadNow_done (v : BitVec 16) (s : State) : Done s (cheadNow v s) := by
  unfold cheadNow
  split
  next => exact .of_axes rfl (.inl rfl) rfl rfl
  next => exact .of_axes rfl (.inl rfl) rfl rfl

theorem ctlNow_done (go halt soft : Bool) (s : State) : Done s (ctlNow go halt soft s) := by
  unfold ctlNow
  split
  next => exact softResetNow_done s
  next =>
    split
    next => exact goNow_done s
    next =>
      split
      next => exact haltNow_done s
      next => exact .refl s

theorem writeReg_done (reg : HostReg) (v : Word) (s : State) : Done s (writeReg reg v s) := by
  cases reg with
  | ctl => exact ctlNow_done ..
  | tailpost => exact tailpostNow_done ..
  | chead => exact cheadNow_done ..
  | sts | suaLo | suaHi | icause | imod => exact .of_axes rfl (.inl rfl) rfl rfl

theorem holdoffNow_done (s : State) : Done s (holdoffNow s) := by
  unfold holdoffNow
  split
  next => exact .refl s
  next => exact .of_axes rfl (.inl rfl) rfl rfl

theorem countWrite_done (s : State) : Done s (countWrite s) := by
  unfold countWrite
  dsimp only
  split
  next => exact .of_axes rfl (.inl rfl) rfl rfl
  next =>
    split
    next => exact .of_axes rfl (.inl rfl) rfl rfl
    next =>
      split
      next => exact .of_axes rfl (.inl rfl) rfl rfl
      next => exact .of_axes rfl (.inl rfl) rfl rfl

/-! ### The port -/

theorem freePort_done (s : State) : Done s { s with port := none } :=
  .of_axes rfl (.inr fun _ _ h => by simp at h) rfl rfl

theorem endFetch_done (r : Fin 5) (s : State) : Done s (endFetch r s) :=
  .of_axes rfl (.inr fun _ _ h => by simp [endFetch] at h) rfl rfl

theorem grantWriter_done (s : State) : Done s (grantWriter s) := by
  unfold grantWriter
  split
  next => exact .refl s
  next =>
    split
    next => exact .of_axes rfl (.inr fun _ _ h => by simp at h) rfl rfl
    next => exact .refl s

theorem axisRing_pred {r : Fin 5} (h : r ≠ 0) : axisRing (r.pred h) = r := Fin.succ_pred r h

theorem pred_axisRing (a : Axis) (h : axisRing a ≠ 0) : (axisRing a).pred h = a := Fin.pred_succ a

/-- R124: a read is granted only to an axis with room for its record. -/
theorem grantFetcher_done {r : Fin 5} {s : State} (h : fetcherRequests s r = true) : Done s (grantFetcher r s) := by
  unfold grantFetcher
  dsimp only
  split
  next => exact .of_axes rfl (.inr fun _ _ h => by simp at h) rfl rfl
  next hmirror =>
    refine ⟨rfl, id, fun hs => ⟨hs.most, fun a ad hport => ?_⟩⟩
    obtain ⟨rfl, -⟩ := by simpa using hport
    have htakes : ownerTakes s (axisRing a) = true := by
      simp only [fetcherRequests, readRequests, mirrorRequests, Bool.or_eq_true, Bool.and_eq_true] at h
      obtain h | h := h
      · exact h.1.1.1.2
      · exact absurd h.1.2 hmirror
    have hring : axisRing a ≠ 0 := Fin.succ_ne_zero a
    simp only [ownerTakes, dif_neg hring, pred_axisRing, Bool.and_eq_true, decide_eq_true_eq] at htakes
    exact htakes.2

theorem nextFetcher_requests {s : State} {r : Fin 5} (h : nextFetcher s = some r) : fetcherRequests s r = true :=
  List.find?_some h

theorem portGrantNow_done (s : State) : Done s (portGrantNow s) := by
  unfold portGrantNow
  split
  next => exact .refl s
  next =>
    split
    next =>
      split
      next => exact .of_axes rfl (.inr fun _ _ h => by simp [grantSetup] at h) rfl rfl
      next => exact .refl s
    next =>
      split
      next => exact grantWriter_done s
      next =>
        split
        next hr => exact grantFetcher_done (nextFetcher_requests hr)
        next => exact .refl s

theorem judgeBlock_done (l : List Block32) (s : State) : Done s (judgeBlock l s) := by
  unfold judgeBlock
  split
  next => exact .of_axes rfl (.inl rfl) rfl rfl
  next => exact .of_axes rfl (.inl rfl) rfl rfl

theorem setupReadEnd_done (k : Fin 4) (res : ReadEnd) (s : State) : Done s (setupReadEnd k res s) := by
  refine (freePort_done s).trans ?_
  unfold setupReadEnd
  dsimp only
  split
  next => exact .of_axes rfl (.inl rfl) rfl rfl
  next =>
    split
    next => exact judgeBlock_done ..
    next => exact .of_axes rfl (.inl rfl) rfl rfl

theorem deliverRecord_control (d : Block32) (s : State) : deliverRecord 0 d s = judgeRecord (readCtlRecord d) s := rfl

theorem deliverRecord_axis (a : Axis) (d : Block32) (s : State) : deliverRecord (axisRing a) d s = stage a d s := rfl

theorem judgeRecord_done (c : CtlRecord) (s : State) : Done s (judgeRecord c s) :=
  (judgeRecord_quiet c s).done (judgeRecord_claim c)

/-- The read of an axis ring that is on the port has room in the queue of its axis, so the record it brings fits (R4, R124). -/
theorem takeRecord_done {r : Fin 5} {s : State} {ad : Addr} (d : Block32) (hport : s.port = some (.fetchRead r ad)) :
    Done s (takeRecord r d s) := by
  have hmirror : Done s { s.modFetcher r (fun f => { f with head := ringNext (s.fetcher r).head (s.fetcher r).size }) with
      port := some (.fetchMirror r (mirrorAddr s.setupAddr r)
        (mirrorWord (ringNext (s.fetcher r).head (s.fetcher r).size))) } :=
    .of_axes rfl (.inr fun _ _ h => by simp at h) rfl rfl
  unfold takeRecord
  dsimp only
  by_cases hr : r = 0
  · subst hr
    exact hmirror.trans (judgeRecord_done ..)
  · obtain ⟨a, rfl⟩ : ∃ a, r = axisRing a := ⟨r.pred hr, (axisRing_pred hr).symm⟩
    rw [deliverRecord_axis]
    refine ⟨rfl, id, fun hs => ⟨fun b => ?_, fun b _ h => by simp [stage] at h⟩⟩
    have hroom := hs.reading a ad hport
    have hmost := hs.most b
    rw [stage, State.modAxis_axis]
    split
    next hb =>
      subst hb
      change ((s.axis b).staging ++ [readAxisRecord d]).length ≤ 4
      rw [List.length_append]
      exact hroom
    next => exact hmost

theorem endFetch_calm (r : Fin 5) (s : State) : Calm s (endFetch r s) :=
  ⟨.of_axes rfl (.inr fun _ _ h => by simp [endFetch] at h) rfl, id⟩

theorem readFailed_calm (r : Fin 5) (s : State) : Calm s (readFailed r s) := by
  unfold readFailed
  split
  next => exact deviceFail_calm ..
  next =>
    dsimp only
    split
    next => exact .refl s
    next => exact haltCurrent_calm ..

theorem fetchReadEnd_done {r : Fin 5} {s : State} {ad : Addr} (res : ReadEnd) (hport : s.port = some (.fetchRead r ad)) :
    Done s (fetchReadEnd r res s) := by
  unfold fetchReadEnd
  dsimp only
  split
  next => exact endFetch_done ..
  next =>
    split
    next => exact ((endFetch_calm r s).trans (readFailed_calm ..)).settle_done
    next =>
      split
      next => exact (takeRecord_done _ hport).trans (settle_done _)
      next => exact endFetch_done ..

theorem mirrorEnd_done (r : Fin 5) (b : Bool) (s : State) : Done s (mirrorEnd r b s) := by
  unfold mirrorEnd
  split
  next => exact deviceFail_done ..
  next => exact .refl s

/-- The write in flight ends and the port is free. -/
def endFlight (s : State) : State := { s with port := none, writer := { s.writer with inFlight := none } }

theorem endFlight_done (s : State) : Done s (endFlight s) := .of_axes rfl (.inr fun _ _ h => by simp [endFlight] at h) rfl rfl

theorem reportWritten_done (e : Fin 24) (s : State) : Done s (reportWritten e s) := by
  unfold reportWritten
  dsimp only
  refine Done.trans ?_ (countWrite_done _)
  exact .of_axes rfl (.inl rfl) rfl rfl

theorem reportEnd_done (e : Fin 24) (b : Bool) (s : State) : Done s (reportEnd e b s) := by
  unfold reportEnd
  split
  next => exact endFlight_done s
  next =>
    split
    next => exact (endFlight_done s).trans (deviceFail_done ..)
    next => exact (freePort_done s).trans ((reportWritten_done ..).trans (settle_done _))

/-! ### Timers, pulses and control records -/

theorem expiryNow_done (a : Axis) (s : State) : Done s (expiryNow a s) := by
  unfold expiryNow
  split
  next => exact .refl s
  next =>
    exact Calm.settle_done (((Calm.modAxis s a (f := AxisBlock.expire) le_rfl).trans (expiryWork_calm ..)).trans
      (countTimeouts_calm ..))

theorem pulseNow_done (a : Axis) (s : State) : Done s (pulseNow a s) := by
  unfold pulseNow
  split
  next => exact .refl s
  next => exact .modAxis le_rfl

theorem deliverCommand_done (tag : Word) (b : CtlBody) (s : State) : Done s (deliverCommand tag b s) := by
  unfold deliverCommand
  split
  next => exact (judgeRecord_done ..).trans (settle_done _)
  next => exact .refl s

theorem encoderTransition_done (a : Axis) (line : QuadLine) (high : Bool) (s : State) :
    Done s (runDelivery (.encoder a line high) s) :=
  (Done.of_axes rfl (.inl rfl) rfl rfl : Done s (setLevel (quadInput a line) high s)).trans (.modAxis le_rfl)

/-! ### Every command -/

theorem exec_done (c : Instr) (s : State) : ∃ t, exec c s = .next t ∧ Done s t := by
  cases c with
  | hardwareReset p => exact ⟨_, rfl, resetBlocks_done ..⟩
  | softReset => exact ⟨_, rfl, softResetNow_done s⟩
  | go => exact ⟨_, rfl, goNow_done s⟩
  | halt => exact ⟨_, rfl, haltNow_done s⟩
  | tailpost => exact ⟨_, rfl, tailpostNow_done ..⟩
  | chead => exact ⟨_, rfl, cheadNow_done ..⟩
  | icauseWrite | imodWrite | stsWrite => exact ⟨_, rfl, .of_axes rfl (.inl rfl) rfl rfl⟩
  | registerWrite => exact ⟨_, rfl, writeReg_done ..⟩
  | portGrant => exact ⟨_, rfl, portGrantNow_done s⟩
  | setupReadComplete r =>
    change ∃ t, execSetupReadComplete r s = _ ∧ _
    unfold execSetupReadComplete
    split
    next => exact ⟨_, rfl, setupReadEnd_done ..⟩
    next => exact ⟨_, rfl, .refl s⟩
  | fetchReadComplete r =>
    change ∃ t, execFetchReadComplete r s = _ ∧ _
    unfold execFetchReadComplete
    split
    next hport => exact ⟨_, rfl, fetchReadEnd_done _ hport⟩
    next => exact ⟨_, rfl, .refl s⟩
  | mirrorWriteComplete b =>
    change ∃ t, execMirrorWriteComplete b s = _ ∧ _
    unfold execMirrorWriteComplete
    split
    next => exact ⟨_, rfl, (endFetch_done ..).trans (mirrorEnd_done ..)⟩
    next => exact ⟨_, rfl, (freePort_done s).trans (mirrorEnd_done ..)⟩
    next => exact ⟨_, rfl, .refl s⟩
  | completionWriteComplete b =>
    change ∃ t, execCompletionWriteComplete b s = _ ∧ _
    unfold execCompletionWriteComplete
    split
    next => exact ⟨_, rfl, reportEnd_done ..⟩
    next => exact ⟨_, rfl, .refl s⟩
  | holdoffExpiry => exact ⟨_, rfl, holdoffNow_done s⟩
  | quiesceEnd => exact ⟨_, rfl, quiesceEndNow_done s⟩
  | updatePeriodExpiry => exact ⟨_, rfl, expiryNow_done ..⟩
  | stepPulseIssue => exact ⟨_, rfl, pulseNow_done ..⟩
  | stepPulseEnd => exact ⟨_, rfl, .modAxis le_rfl⟩
  | encoderTransition => exact ⟨_, rfl, encoderTransition_done ..⟩
  | limitEdge | quadratureError | event => exact ⟨_, rfl, (runDelivery_calm ..).settle_done⟩
  | qualifierSample => exact ⟨_, rfl, (sampleEdges_calm ..).settle_done⟩
  | configureAxis | configureInputs | enableAxis | disableAxis | stopAxis | abortAxis | clearFault | defineGroup | clearGroup
  | setCaptureArm | setCaptureDisarm | readStatus | nop | invalidControlRecord => exact ⟨_, rfl, deliverCommand_done ..⟩

/-- Settles O3: every command is `Done` from the state it is given. -/
theorem everyCommandCompletes : Obligations.EveryCommandCompletes := by
  intro c s
  obtain ⟨t, hexec, hdone⟩ := exec_done c s
  exact ⟨t, hexec, hdone.pending, hdone.claim⟩

/-! ### A step -/

theorem timeTick_quiet (s : State) : Quiet s (timeTick s) := by
  unfold timeTick
  split
  next =>
    split
    next => exact .of_axes rfl (.inl rfl) rfl
    next => exact .of_axes rfl (.inl rfl) rfl
  next => exact (Calm.refl s).toQuiet

theorem slowTick_quiet (s : State) : Quiet s (slowTick s) := by
  unfold slowTick
  split
  next => exact .of_axes rfl (.inl rfl) rfl
  next => exact .of_axes rfl (.inl rfl) rfl

theorem tick_quiet (s : State) : Quiet s (tick s) := by
  refine Quiet.trans ?_ ((timeTick_quiet _).trans (slowTick_quiet _))
  exact (Calm.mapAxes s (f := AxisBlock.tick) fun _ => le_rfl).toQuiet.trans (.of_axes rfl (.inl rfl) rfl)

theorem lookNow_quiet (s : State) : Quiet s (lookNow s) := by
  unfold lookNow
  split
  next => exact (Calm.refl s).toQuiet
  next => exact (judgeRecord_quiet ..).trans (offIfAtRest_calm _).toQuiet

theorem idle_staging {s : State} (h : s.StagingInBounds) : (idle s).StagingInBounds := by
  unfold idle
  split
  next =>
    split
    next => exact (lookNow_quiet s).staging_inBounds h
    next => exact (tick_quiet s).staging_inBounds h
  next => exact ⟨h.most, h.reading⟩

/-- A property that every command keeps and that an empty queue's step keeps is kept by every step. -/
theorem step_keeps {P : State → Prop} (hexec : ∀ c s t, P s → exec c s = .next t → P t) (hidle : ∀ s, P s → P (idle s))
    (hpending : ∀ s l, P s → P { s with pending := l }) {s t : State} (hs : P s) (hstep : step s = .next t) : P t := by
  unfold step at hstep
  split at hstep
  next => exact hexec _ _ _ (hpending _ _ hs) hstep
  next =>
    cases hstep
    exact hidle _ hs

theorem exec_staging {c : Instr} {s t : State} (hs : s.StagingInBounds) (h : exec c s = .next t) : t.StagingInBounds := by
  obtain ⟨u, hu, hdone⟩ := exec_done c s
  cases hu.symm.trans h
  exact hdone.staging hs

/-- Settles O10: a read is granted to an axis with room alone, and nothing else lengthens a staging queue. -/
theorem stagingQueuesHoldAtMostFour : Obligations.StagingQueuesHoldAtMostFour :=
  fun _ _ hs hstep => step_keeps (fun _ _ _ => exec_staging) (fun _ => idle_staging)
    (fun _ _ h => ⟨h.most, h.reading⟩) hs hstep

end Sys2Proof.Machine
end

section
/-! PROOFS. The reset state and the two resets (R166), GO and the setup reads (R167), the end of a quiesce (R170), the moderator's writes
(R148 to R150) and the registers as tabled (R162, R164, Table 12-10). -/

namespace Sys2Proof.Machine
open Sys2Proof

/-! ### The queue -/

/-- Settles O1. -/
theorem stepRunsFront : Obligations.StepRunsFront := by
  intro s c rest hpending
  rw [step, hpending]

/-! ### The reset state -/

theorem reset_axis (a : Axis) : State.reset.axis a = AxisBlock.reset := by simp [State.reset, State.axis]

theorem reset_group (g : GroupIx) : State.reset.group g = Group.reset := by simp [State.reset, State.group]

theorem reset_fetcher (r : Fin 5) : State.reset.fetcher r = Fetcher.reset := by simp [State.reset, State.fetcher]

theorem reset_entry (e : Fin 24) : State.reset.entry e = .free := by simp [State.reset, State.entry]

theorem reset_line (l : Line) : State.reset.line l = LineState.reset := by simp [State.reset, State.line]

theorem axisReset_ratesInRange : AxisBlock.reset.RatesInRange :=
  ratesInRange_of_rest (fun h => absurd rfl h) (fun _ h => by simp [AxisBlock.reset] at h)
    (show firstFailing AxisConfig.reset = none by decide) rfl rfl rfl rfl

theorem axisReset_outputsFollow : AxisBlock.reset.OutputsFollow :=
  ⟨fun h => absurd rfl h, by simp [AxisBlock.reset], by simp [AxisBlock.reset], rfl⟩

theorem axisReset_causeInHalted : AxisBlock.reset.CauseInHalted :=
  ⟨fun h => absurd rfl h, by simp [AxisBlock.reset], fun _ => rfl⟩

theorem axisReset_countsInRange : AxisBlock.reset.CountsInRange :=
  ⟨formed_cleared, Nat.zero_le _, Nat.zero_le _, Nat.zero_le _, by simp [AxisBlock.reset]⟩

theorem groupReset_wellKept : Group.reset.WellKept := wellKept_of_arrived_zero rfl (by simp [Group.reset]) fun _ => rfl

theorem reset_ringsInRange : State.reset.RingsInRange :=
  ⟨fun r => .inr (by rw [reset_fetcher]; exact ⟨rfl, rfl, rfl⟩), .inr ⟨rfl, rfl, rfl⟩, fun _ _ _ h => by simp [State.reset] at h⟩

theorem reset_stagingInBounds : State.reset.StagingInBounds :=
  ⟨fun a => by rw [reset_axis]; exact Nat.zero_le _, fun _ _ h => by simp [State.reset] at h⟩

/-- An empty buffer, with nothing on the port and no axis holding an entry, is kept. -/
theorem reset_bufferKept : State.reset.BufferKept where
  once := List.nodup_nil
  filled e := ⟨fun h => by simp [State.reset] at h, fun ⟨r, h⟩ => by simp [reset_entry] at h⟩
  active _ a g h := by simp [reset_axis, AxisBlock.reset] at h
  held _ a g h := by simp [reset_axis, AxisBlock.reset] at h
  request _ a q h := by simp [reset_axis, AxisBlock.reset] at h
  writing _ e ad v h := by simp [State.reset] at h
  faultSlot _ a := .inl (reset_entry _)
  waitSync a h := by simp [reset_axis, AxisBlock.reset] at h
  setup k ad h := by simp [State.reset] at h
  failed _ := rfl
  claim := rfl

/-- Settles O12. -/
theorem resetMeetsInvariants : Obligations.ResetMeetsInvariants := by
  refine ⟨fun a => ?_, fun g => ?_, reset_ringsInRange, reset_stagingInBounds, reset_bufferKept, rfl⟩
  · rw [reset_axis]
    exact ⟨axisReset_ratesInRange, axisReset_outputsFollow, axisReset_causeInHalted, axisReset_countsInRange⟩
  · rw [reset_group]
    exact groupReset_wellKept

/-! ### The two resets -/

theorem exec_hardwareReset (p : Bool) (s : State) :
    exec (.hardwareReset p) s = .next (resetBlocks (if p then .power else .pin) s) := rfl

theorem resetBlocks_fetcher (c : ResetCause) (s : State) (r : Fin 5) : (resetBlocks c s).fetcher r = Fetcher.reset :=
  reset_fetcher r

theorem resetBlocks_entry (c : ResetCause) (s : State) (e : Fin 24) : (resetBlocks c s).entry e = .free := reset_entry e

theorem resetBlocks_line (c : ResetCause) (s : State) (l : Line) : (resetBlocks c s).line l = LineState.reset := reset_line l

theorem anyHalted_iff (s : State) : s.anyHalted = true ↔ ∃ a, (s.axis a).st = .halted := by
  have hmem : ∀ a : Axis, a ∈ allAxes := by decide
  simp [State.anyHalted, hmem]

theorem faultOut_iff (s : State) : s.faultOut = true ↔ (∃ a, (s.axis a).st = .halted) ∨ s.dev = .failed := by
  rw [State.faultOut, Bool.or_eq_true, anyHalted_iff, beq_iff_eq]

theorem resetBlocks_faultOut (c : ResetCause) (s : State) : (resetBlocks c s).faultOut = false := by
  rw [Bool.eq_false_iff, ne_eq, faultOut_iff]
  rintro (⟨a, ha⟩ | hdev)
  · simp [resetBlocks_axis, AxisBlock.afterReset, AxisBlock.reset] at ha
  · simp [resetBlocks, State.reset] at hdev

theorem resetBlocks_imod (c : ResetCause) (s : State) : (resetBlocks c s).readReg .imod = 0x100#32 :=
  show Imod.reset.read = _ by decide

theorem resetBlocks_icause (c : ResetCause) (s : State) : (resetBlocks c s).readReg .icause = 0 :=
  show BitVec.ofNat 32 (bnat false + bnat false * 2 + bnat false * 4) = 0 by decide

/-- Settles O13: the common part of the resets is the reset state but for the pulses begun. -/
theorem resetsSetEveryBlock : Obligations.ResetsSetEveryBlock := by
  intro s p
  rw [exec_hardwareReset, exec_hardwareReset, exec_softReset]
  refine ⟨⟨_, rfl, ?_⟩, ⟨_, _, rfl, rfl, rfl⟩⟩
  generalize (if p then ResetCause.power else .pin) = c
  refine ⟨rfl, rfl, rfl, resetBlocks_imod c s, rfl, rfl, rfl, rfl, rfl, resetBlocks_icause c s, rfl, rfl, rfl, rfl, rfl, rfl,
    rfl, rfl, rfl, rfl, rfl, rfl, resetBlocks_axis c s, resetBlocks_group c s, resetBlocks_fetcher c s, resetBlocks_entry c s,
    fun l => ?_, resetBlocks_faultOut c s, rfl⟩
  rw [resetBlocks_line]
  rfl

/-! ### GO and the setup reads -/

theorem goNow_of_unaligned {s : State} (hdev : s.dev = .offline) (haddr : (s.suaHi ++ s.suaLo).toNat % 64 ≠ 0) :
    goNow s = { s with setupCode := .badAlign, setupAddr := s.suaHi ++ s.suaLo, setupFlag := true } := by
  rw [goNow, if_pos hdev]
  exact if_neg haddr

theorem goNow_of_aligned {s : State} (hdev : s.dev = .offline) (haddr : (s.suaHi ++ s.suaLo).toNat % 64 = 0) :
    goNow s = { s with
      dev := .starting, setupCode := .none, setupAddr := s.suaHi ++ s.suaLo
      setupRead := some { next := 0, chunks := [] } } := by
  rw [goNow, if_pos hdev]
  exact if_pos haddr

theorem portGrantNow_of_starting {s : State} {p : SetupRead} (hdev : s.dev = .starting) (hport : s.port = none)
    (hread : s.setupRead = some p) : portGrantNow s = grantSetup p s := by
  simp [portGrantNow, hport, hdev, hread]

theorem exec_portGrant (s : State) : exec .portGrant s = .next (portGrantNow s) := rfl

theorem exec_setupReadComplete {s : State} {k : Fin 4} {ad : Addr} (hport : s.port = some (.setupRead k ad)) (res : ReadEnd) :
    exec (.setupReadComplete res) s = .next (setupReadEnd k res s) := by
  change execSetupReadComplete res s = _
  rw [execSetupReadComplete, hport]

theorem exec_setupReadComplete_ignored {s : State} (hport : ∀ k ad, s.port ≠ some (.setupRead k ad)) (res : ReadEnd) :
    exec (.setupReadComplete res) s = .next s := by
  change execSetupReadComplete res s = _
  unfold execSetupReadComplete
  split
  next h => exact absurd h (hport _ _)
  next => rfl

theorem setupReadEnd_data {k : Fin 4} {d : Block32} {s : State} {j : Fin 4} {chunks : List Block32}
    (hread : s.setupRead = some { next := j, chunks := chunks }) (hk : k ≠ 3) :
    setupReadEnd k (.data d) s = { s with port := none, setupRead := some { next := k + 1, chunks := chunks ++ [d] } } := by
  simp [setupReadEnd, hread, hk]

/-- Settles O14: GO by the device state and the address, then the setup reads by their answer. -/
theorem goStartsTheSetupReads : Obligations.GoStartsTheSetupReads := by
  intro s
  rw [exec_go, exec_portGrant]
  refine ⟨?ignored, ?unaligned, ?aligned, ?grant, ?answers, ?abandoned⟩
  case ignored => exact fun hdev => by rw [goNow_of_not_offline hdev]
  case unaligned => exact fun hdev haddr => by rw [goNow_of_unaligned hdev haddr]
  case aligned => exact fun hdev haddr => by rw [goNow_of_aligned hdev haddr]
  case grant =>
    intro k chunks hdev hport hread
    rw [portGrantNow_of_starting hdev hport hread]
    rfl
  case answers =>
    intro k ad hport
    refine ⟨exec_setupReadComplete hport _, fun d chunks hread hk => ?_⟩
    rw [exec_setupReadComplete hport, setupReadEnd_data hread hk]
  case abandoned => exact exec_setupReadComplete_ignored

/-! ### The end of a quiesce -/

theorem bufferEmpty_iff (s : State) : s.bufferEmpty = true ↔ ∀ e, s.entry e = .free := by
  have hfree : ∀ v : Entry, v.isFree = true ↔ v = .free := fun v => by cases v <;> simp [Entry.isFree]
  rw [State.bufferEmpty, List.all_eq_true]
  constructor
  · intro h e
    exact (hfree _).mp (h _ (by simp [State.entry]))
  · intro h v hv
    obtain ⟨i, hi, rfl⟩ := Vector.mem_iff_getElem.mp (Vector.mem_toList_iff.mp hv)
    exact (hfree _).mpr (h ⟨i, hi⟩)

theorem fetchersAtRest_iff (s : State) :
    s.fetchers.toList.all (fun f => f.inFlight.isNone && ! f.mirrorPending) = true ↔
      ∀ r, (s.fetcher r).inFlight = none ∧ (s.fetcher r).mirrorPending = false := by
  simp only [List.all_eq_true, Bool.and_eq_true, Option.isNone_iff_eq_none, Bool.not_eq_true']
  constructor
  · exact fun h r => h _ (by simp [State.fetcher])
  · intro h f hf
    obtain ⟨i, hi, rfl⟩ := Vector.mem_iff_getElem.mp (Vector.mem_toList_iff.mp hf)
    exact h ⟨i, hi⟩

/-- The conditions of R170, each by the part it is about. -/
theorem quiesceDone_iff (s : State) : s.quiesceDone = true ↔
    s.dev = .quiescing ∧ (∀ a, (s.axis a).st = .off) ∧ (∀ e, s.entry e = .free) ∧ s.writer.inFlight = none ∧
      s.interp = .waiting ∧ (∀ r, (s.fetcher r).inFlight = none ∧ (s.fetcher r).mirrorPending = false) ∧ s.port = none := by
  have hmem : ∀ a : Axis, a ∈ allAxes := by decide
  rw [← bufferEmpty_iff, ← fetchersAtRest_iff]
  simp only [State.quiesceDone, Bool.and_eq_true, decide_eq_true_eq, Option.isNone_iff_eq_none, List.all_eq_true, beq_iff_eq,
    hmem, forall_const, and_assoc]

theorem exec_quiesceEnd (s : State) : exec .quiesceEnd s = .next (quiesceEndNow s) := rfl

/-- Settles O17. -/
theorem quiesceEndEntersOffline : Obligations.QuiesceEndEntersOffline := by
  intro s done
  rw [exec_quiesceEnd, quiesceEndNow]
  constructor
  · intro hnot
    rw [if_neg (mt (quiesceDone_iff s).mp hnot)]
  · intro hdone
    rw [if_pos ((quiesceDone_iff s).mpr hdone)]
    refine ⟨_, rfl, rfl, fun g => ?_, fun a => ⟨?_, fun src => ?_⟩⟩
    · simp [State.group]
    · simp [State.axis]
    · simp [State.axis, AxisBlock.latch]

/-! ### The moderator -/

theorem newHoldoff_zero (running : Bool) (count : Nat) (cpl : Bool) : newHoldoff 0 running count cpl = none := rfl

theorem newHoldoff_of_running {h : BitVec 16} {running cpl : Bool} {count : Nat} (hne : h ≠ 0)
    (hrun : running = true ∨ 0 < count ∧ cpl = false) : newHoldoff h running count cpl = some (ticksOf h.toNat) := by
  rw [newHoldoff, if_neg hne, if_pos]
  simpa using hrun

theorem newHoldoff_of_stopped {h : BitVec 16} {cpl : Bool} {count : Nat} (hcount : count = 0 ∨ cpl = true) :
    newHoldoff h false count cpl = none := by
  rw [newHoldoff]
  split
  next => rfl
  next =>
    rw [if_neg]
    obtain rfl | rfl := hcount <;> simp

theorem exec_imodWrite (ce fe se : Bool) (thr : BitVec 8) (hold : BitVec 16) (s : State) :
    exec (.imodWrite ce fe se thr hold) s = .next (imodNow (imodOf ce fe se thr hold) s) := rfl

theorem imodNow_cplFlag (m : Imod) (s : State) :
    (imodNow m s).cplFlag = (s.cplFlag || (m.threshold != s.imod.threshold && m.threshold.toNat ≤ s.writeCount)) := rfl

theorem imodNow_holdoff (m : Imod) (s : State) :
    (imodNow m s).holdoff = if m.holdoff = s.imod.holdoff then s.holdoff
      else newHoldoff m.holdoff s.holdoff.isSome s.writeCount (imodNow m s).cplFlag := rfl

/-- A threshold that sets CPL is a new one, at or below the count (R150). -/
theorem imodNow_cplFlag_of_sets {m : Imod} {s : State} (h : m.threshold ≠ s.imod.threshold ∧ m.threshold.toNat ≤ s.writeCount) :
    (imodNow m s).cplFlag = true := by simp [imodNow_cplFlag, h.1, h.2]

theorem imodNow_cplFlag_of_not {m : Imod} {s : State}
    (h : ¬ (m.threshold ≠ s.imod.threshold ∧ m.threshold.toNat ≤ s.writeCount)) : (imodNow m s).cplFlag = s.cplFlag := by
  rw [imodNow_cplFlag, Bool.or_eq_left_iff_imp]
  intro hsets
  exact absurd (by simpa using hsets) h

theorem ticksOf_eq (n : Nat) : ticksOf n = 50 * n := Nat.mul_comm ..

theorem icauseNow_eq (cpl fail setup : Bool) (s : State) :
    icauseNow cpl fail setup s = { s with
      cplFlag := if cpl then false else s.cplFlag
      failFlag := if fail then false else s.failFlag
      setupFlag := if setup then false else s.setupFlag
      writeCount := if cpl then 0 else s.writeCount
      holdoff := if cpl then none else s.holdoff } := by
  cases cpl <;> cases fail <;> cases setup <;> simp [icauseNow]

/-- Settles O21: the write to ICAUSE, the end of the holdoff, and the write to IMOD by what its threshold and its holdoff do. -/
theorem moderatorWritesAndHoldoff : Obligations.ModeratorWritesAndHoldoff := by
  intro s
  refine ⟨fun cpl fail setup => congrArg _ (icauseNow_eq ..), fun hrun => ?_, fun hstop => ?_, ?imod⟩
  · obtain ⟨n, hn⟩ := Option.ne_none_iff_exists'.mp hrun
    change Host.Outcome.next (holdoffNow s) = _
    rw [holdoffNow, hn]
  · change Host.Outcome.next (holdoffNow s) = _
    rw [holdoffNow, hstop]
  case imod =>
    intro ce fe se thr hold thr' sets
    have hkept : ¬ sets → (imodNow (imodOf ce fe se thr hold) s).cplFlag = s.cplFlag := fun hnot => imodNow_cplFlag_of_not hnot
    refine ⟨_, exec_imodWrite .., rfl, rfl, fun hsets => imodNow_cplFlag_of_sets hsets, hkept, fun _ hsame => ?_,
      fun hnot hnew => ⟨fun hzero => ?_, fun hne hrun => ?_, fun hne hstop hcount => ?_⟩, rfl⟩
    · rw [imodNow_holdoff]
      exact if_pos hsame
    · rw [imodNow_holdoff, if_neg (show (imodOf ce fe se thr hold).holdoff ≠ _ from hnew)]
      exact hzero ▸ newHoldoff_zero ..
    · rw [imodNow_holdoff, if_neg (show (imodOf ce fe se thr hold).holdoff ≠ _ from hnew), hkept hnot,
        ← ticksOf_eq]
      exact newHoldoff_of_running hne (hrun.imp_left Option.isSome_iff_ne_none.mpr)
    · rw [imodNow_holdoff, if_neg (show (imodOf ce fe se thr hold).holdoff ≠ _ from hnew), hkept hnot, hstop]
      exact newHoldoff_of_stopped hcount

end Sys2Proof.Machine
end

section
/-! PROOFS. The register fields (Table 12-10), the fields of a report (Table 12-7) and the pulses (R107, R109). -/

namespace Sys2Proof.Machine
open Sys2Proof

/-! ### Fields of a number -/

theorem extractLsb'_ofNat_eq {x lo n v : Nat} (hx : x < 2 ^ 32) (h : x / 2 ^ lo % 2 ^ n = v % 2 ^ n) :
    (BitVec.ofNat 32 x).extractLsb' lo n = BitVec.ofNat n v := by
  apply BitVec.eq_of_toNat_eq
  rw [BitVec.extractLsb'_toNat, BitVec.toNat_ofNat, BitVec.toNat_ofNat, Nat.mod_eq_of_lt hx, Nat.shiftRight_eq_div_pow, h]

theorem getLsbD_ofNat_eq {x i : Nat} {b : Bool} (hi : i < 32) (h : x / 2 ^ i % 2 = bnat b) :
    (BitVec.ofNat 32 x).getLsbD i = b := by
  rw [BitVec.getLsbD_ofNat, Nat.testBit_eq_decide_div_mod_eq, h]
  cases b <;> simp [hi, bnat]

theorem bnat_le (b : Bool) : bnat b ≤ 1 := by cases b <;> simp [bnat]

/-! ### STS -/

/-- The failure cause of STS with its ring: 0 without a failure (log entry 31). -/
def failField (f : Option Failure) : Nat := (f.map fun f => f.access.code * 2 ^ 12 + f.ring.val * 2 ^ 16).getD 0

theorem failField_some (f : Failure) : failField (some f) = f.access.code * 2 ^ 12 + f.ring.val * 2 ^ 16 := rfl

theorem DevState.code_lt (d : DevState) : d.code < 8 := by cases d <;> decide

theorem ResetCause.code_lt (c : ResetCause) : c.code < 4 := by cases c <;> decide

theorem SetupCode.code_lt (c : SetupCode) : c.code < 4 := by cases c <;> decide

theorem FailAccess.code_lt (a : FailAccess) : a.code < 4 := by cases a <;> decide

theorem failField_bounds (f : Option Failure) : ∃ c r, failField f = c * 2 ^ 12 + r * 2 ^ 16 ∧ c < 4 ∧ r < 6 := by
  cases f with
  | none => exact ⟨0, 0, rfl, by omega, by omega⟩
  | some f => exact ⟨_, _, rfl, f.access.code_lt, f.ring.isLt⟩

/-- A field of STS, by the place it has in the sum. -/
theorem sts_field {s : State} {lo n v : Nat}
    (h : ∀ c r p e m, failField s.failure = c * 2 ^ 12 + r * 2 ^ 16 → c < 4 → r < 6 → p ≤ 1 → e ≤ 1 → m ≤ 1 →
      (s.dev.code + s.resetCause.code * 2 ^ 4 + s.setupCode.code * 2 ^ 8 + (c * 2 ^ 12 + r * 2 ^ 16) + p * 2 ^ 24 + e * 2 ^ 25
        + m * 2 ^ 28) / 2 ^ lo % 2 ^ n = v % 2 ^ n) :
    (s.readReg .sts).extractLsb' lo n = BitVec.ofNat n v := by
  obtain ⟨c, r, hf, hc, hr⟩ := failField_bounds s.failure
  have hp := bnat_le s.postErr
  have he := bnat_le s.headErr
  have hm := bnat_le s.anyHalted
  have hd := s.dev.code_lt
  have hrc := s.resetCause.code_lt
  have hsc := s.setupCode.code_lt
  have hsum : s.readReg .sts = BitVec.ofNat 32 (s.dev.code + s.resetCause.code * 2 ^ 4 + s.setupCode.code * 2 ^ 8
      + (c * 2 ^ 12 + r * 2 ^ 16) + bnat s.postErr * 2 ^ 24 + bnat s.headErr * 2 ^ 25 + bnat s.anyHalted * 2 ^ 28) := by
    rw [← hf]
    rfl
  rw [hsum]
  exact extractLsb'_ofNat_eq (by omega) (h c r _ _ _ hf hc hr hp he hm)

theorem sts_flag {s : State} {i : Nat} {b : Bool} (hi : i < 32)
    (h : ∀ c r, c < 4 → r < 6 → (s.dev.code + s.resetCause.code * 2 ^ 4 + s.setupCode.code * 2 ^ 8 + (c * 2 ^ 12 + r * 2 ^ 16)
      + bnat s.postErr * 2 ^ 24 + bnat s.headErr * 2 ^ 25 + bnat s.anyHalted * 2 ^ 28) / 2 ^ i % 2 = bnat b) :
    (s.readReg .sts).getLsbD i = b := by
  obtain ⟨c, r, hf, hc, hr⟩ := failField_bounds s.failure
  refine getLsbD_ofNat_eq hi ?_
  rw [← h c r hc hr, ← hf]
  rfl

/-- The reads of STS, each item at its place. -/
theorem sts_reads (s : State) :
    (s.readReg .sts).extractLsb' 0 3 = BitVec.ofNat 3 s.dev.code ∧
    (s.readReg .sts).extractLsb' 4 2 = BitVec.ofNat 2 s.resetCause.code ∧
    (s.readReg .sts).extractLsb' 8 2 = BitVec.ofNat 2 s.setupCode.code ∧
    (s.readReg .sts).getLsbD 24 = s.postErr ∧ (s.readReg .sts).getLsbD 25 = s.headErr ∧
    (s.readReg .sts).getLsbD 28 = s.anyHalted := by
  have hd := s.dev.code_lt
  have hrc := s.resetCause.code_lt
  have hsc := s.setupCode.code_lt
  have hp := bnat_le s.postErr
  have he := bnat_le s.headErr
  have hm := bnat_le s.anyHalted
  refine ⟨sts_field ?_, sts_field ?_, sts_field ?_, sts_flag (by omega) ?_, sts_flag (by omega) ?_, sts_flag (by omega) ?_⟩
  all_goals intros; omega

/-- The failure cause and its ring in STS. -/
theorem sts_failure {s : State} {c r : Nat} (hf : failField s.failure = c * 2 ^ 12 + r * 2 ^ 16) (hc : c < 4) (_hr : r < 6) :
    (s.readReg .sts).extractLsb' 12 2 = BitVec.ofNat 2 c ∧ (s.readReg .sts).extractLsb' 16 3 = BitVec.ofNat 3 r := by
  have hd := s.dev.code_lt
  have hrc := s.resetCause.code_lt
  have hsc := s.setupCode.code_lt
  refine ⟨sts_field ?_, sts_field ?_⟩
  all_goals intros; omega

/-! ### ICAUSE and IMOD -/

theorem icause_reads (s : State) : (s.readReg .icause).getLsbD 0 = s.cplFlag ∧ (s.readReg .icause).getLsbD 1 = s.failFlag ∧
    (s.readReg .icause).getLsbD 2 = s.setupFlag := by
  have hc := bnat_le s.cplFlag
  have hf := bnat_le s.failFlag
  have hp := bnat_le s.setupFlag
  refine ⟨getLsbD_ofNat_eq (by omega) ?_, getLsbD_ofNat_eq (by omega) ?_, getLsbD_ofNat_eq (by omega) ?_⟩
  all_goals omega

theorem imod_reads (m : Imod) : m.read.getLsbD 0 = m.cplEn ∧ m.read.getLsbD 1 = m.failEn ∧ m.read.getLsbD 2 = m.setupEn ∧
    m.read.extractLsb' 8 8 = m.threshold ∧ m.read.extractLsb' 16 16 = m.holdoff := by
  have hc := bnat_le m.cplEn
  have hf := bnat_le m.failEn
  have hp := bnat_le m.setupEn
  have ht := m.threshold.isLt
  have hh := m.holdoff.isLt
  refine ⟨getLsbD_ofNat_eq (by omega) ?_, getLsbD_ofNat_eq (by omega) ?_, getLsbD_ofNat_eq (by omega) ?_,
    (extractLsb'_ofNat_eq (v := m.threshold.toNat) (by omega) ?_).trans (by simp),
    (extractLsb'_ofNat_eq (v := m.holdoff.toNat) (by omega) ?_).trans (by simp)⟩
  all_goals omega

theorem stsNow_eq (p h : Bool) (s : State) : stsNow p h s = { s with
    postErr := if p then false else s.postErr, headErr := if h then false else s.headErr } := by
  cases p <;> cases h <;> simp [stsNow]

theorem irqOut_iff (s : State) : s.irqOut = true ↔ s.cplFlag = true ∧ s.imod.cplEn = true ∨
    s.failFlag = true ∧ s.imod.failEn = true ∨ s.setupFlag = true ∧ s.imod.setupEn = true := by
  simp [State.irqOut, or_assoc]

/-- Settles O22: the writes are the commands of their registers, and each item of a read stands at its place. -/
theorem registersWriteAndReadAsTabled : Obligations.RegistersWriteAndReadAsTabled := by
  intro s v p h
  obtain ⟨hdev, hcause, hcode, hpost, hhead, hhalted⟩ := sts_reads s
  obtain ⟨hcpl, hfail, hsetup⟩ := icause_reads s
  obtain ⟨hcplEn, hfailEn, hsetupEn, hthreshold, hholdoff⟩ := imod_reads s.imod
  refine ⟨congrArg _ (stsNow_eq ..), rfl, rfl, rfl, rfl, rfl, rfl, rfl, hdev.trans ?_, hcause.trans ?_, hcode.trans ?_,
    fun f hf => ?_, fun hf => ?_, hpost, hhead, ?_, hcpl, hfail, hsetup, rfl, rfl, rfl, hcplEn, hfailEn, hsetupEn, hthreshold,
    hholdoff, rfl, rfl, faultOut_iff s, irqOut_iff s⟩
  · cases s.dev <;> rfl
  · cases s.resetCause <;> rfl
  · cases s.setupCode <;> rfl
  · obtain ⟨haccess, hring⟩ := sts_failure (s := s) (by rw [hf]; exact failField_some f) f.access.code_lt f.ring.isLt
    refine ⟨haccess.trans ?_, hring⟩
    cases f.access <;> rfl
  · exact sts_failure (s := s) (c := 0) (r := 0) (by rw [hf]; rfl) (by omega) (by omega)
  · rw [hhalted, anyHalted_iff]

/-! ### The fields of a report -/

/-- A field that lies in the upper part of two joined vectors. -/
theorem extractLsb'_append_hi {n m : Nat} (x : BitVec n) (y : BitVec m) (lo k : Nat) (h : m ≤ lo) :
    (x ++ y).extractLsb' lo k = x.extractLsb' (lo - m) k := by
  ext i hi
  have hge : ¬ lo + i < m := by omega
  simp only [BitVec.getElem_extractLsb', BitVec.getLsbD_append, if_neg hge]
  congr 1
  omega

/-- A field that lies in the lower part of two joined vectors. -/
theorem extractLsb'_append_lo {n m : Nat} (x : BitVec n) (y : BitVec m) (lo k : Nat) (h : lo + k ≤ m) :
    (x ++ y).extractLsb' lo k = y.extractLsb' lo k := by
  ext i hi
  have hlt : lo + i < m := by omega
  simp only [BitVec.getElem_extractLsb', BitVec.getLsbD_append, if_pos hlt]

theorem extractLsb'_whole {n lo : Nat} (x : BitVec n) (h : lo = 0) : x.extractLsb' lo n = x := by
  rw [h, BitVec.extractLsb'_eq_self]

/-- Settles O31: the fields are joined in the order of Table 12-7. -/
theorem reportFieldsStandAsTabled : Obligations.ReportFieldsStandAsTabled := by
  intro r
  unfold Report.bytes Report.header
  refine ⟨?_, ?_, ?_, ?_, ?_, ?_, ?_, ?_, ?_, ?_, ?_, ?_, ?_, ?_⟩
  all_goals
    repeat first
      | refine (extractLsb'_append_hi _ _ _ _ (by omega)).trans ?_
      | refine (extractLsb'_append_lo _ _ _ _ (by omega)).trans ?_
    exact extractLsb'_whole _ rfl

/-! ### Pulses -/

theorem satAcc_eq (acc d : Int) : satAcc acc d = max (-2147483647) (min 2147483647 (acc + d)) := by
  unfold satAcc
  split
  next => omega
  next => split <;> omega

theorem Segment.countPulse_move {g : Segment} {m : Move} (h : g.record.body = .move m) :
    g.countPulse = { g with
      issued := if g.issued < m.steps then g.issued + 1 else g.issued
      overrun := if g.issued < m.steps then g.overrun else g.overrun + 1 } := by
  rw [Segment.countPulse, h]
  dsimp only
  split <;> rfl

theorem AxisBlock.beginPulse_move {x : AxisBlock} {g : Segment} {m : Move} (rest : List Nat) (hactive : x.active = some g)
    (hbody : g.record.body = .move m) :
    x.beginPulse rest = { x with
      schedule := rest, pulse := some (50 * x.cfg.pulseWidth)
      cmdPos := if x.dir = .forward then x.cmdPos + 1 else x.cmdPos - 1
      acc := max (-2147483647) (min 2147483647
        (if x.dir = .forward then x.acc + x.cfg.countsPerStep else x.acc - x.cfg.countsPerStep))
      active := some { g with
        issued := if g.issued < m.steps then g.issued + 1 else g.issued
        overrun := if g.issued < m.steps then g.overrun else g.overrun + 1 } } := by
  cases hdir : x.dir <;>
    simp [AxisBlock.beginPulse, hdir, hactive, Segment.countPulse_move hbody, satAcc_eq, ticksOf_eq, Int.sub_eq_add_neg]

/-- Settles O44. -/
theorem pulsesCountAsTheyBegin : Obligations.PulsesCountAsTheyBegin := by
  intro s a x k sum
  refine ⟨fun hnone => ?_, fun n rest g m hsched hactive hbody => ?_, rfl⟩
  · change Host.Outcome.next (pulseNow a s) = _
    rw [pulseNow, show (s.axis a).schedule = [] from hnone]
  · change Host.Outcome.next (pulseNow a s) = _
    rw [pulseNow, show (s.axis a).schedule = n :: rest from hsched]
    refine congrArg _ (State.modAxis_congr s a ?_)
    rw [AxisBlock.beginPulse_move rest hactive hbody]

end Sys2Proof.Machine
end

section
/-! PROOFS. The memory port: who requests it and who is granted it (R124, R125, R129, R140, R141), the setup block (R168), a report
write that ends well (R141, R148) and a control record read (R126, R153). -/

namespace Sys2Proof.Machine
open Sys2Proof

/-! ### Requests -/

theorem AxisState.fetches_iff (st : AxisState) :
    st.fetches = true ↔ st = .idle ∨ st = .run ∨ st = .dwell ∨ st = .waitEvent ∨ st = .waitSync := by
  cases st <;> simp [AxisState.fetches]

/-- R124: the interpreter takes a record for ring 0, an axis with room for its own ring. -/
theorem ownerTakes_iff (s : State) (r : Fin 5) : ownerTakes s r = true ↔ (r = 0 → s.interp = .waiting) ∧
    ∀ a : Axis, r = a.succ → (s.axis a).staging.length < 4 ∧ ((s.axis a).st = .idle ∨ (s.axis a).st = .run ∨
      (s.axis a).st = .dwell ∨ (s.axis a).st = .waitEvent ∨ (s.axis a).st = .waitSync) := by
  unfold ownerTakes
  cases r using Fin.cases with
  | zero => simp [Fin.succ_ne_zero, eq_comm]
  | succ b =>
    rw [dif_neg (Fin.succ_ne_zero b), Fin.pred_succ, Bool.and_eq_true, AxisState.fetches_iff, decide_eq_true_eq]
    refine ⟨fun ⟨hst, hroom⟩ => ⟨fun h => absurd h (Fin.succ_ne_zero b), fun a ha => ?_⟩, fun h => (h.2 b rfl).symm⟩
    obtain rfl := Fin.succ_injective _ ha
    exact ⟨hroom, hst⟩

theorem mirrorRequests_iff (s : State) (r : Fin 5) : mirrorRequests s r = true ↔
    (s.dev = .online ∨ s.dev = .quiescing) ∧ (s.fetcher r).mirrorPending = true ∧ (s.fetcher r).inFlight = none := by
  simp [mirrorRequests, and_assoc]

theorem readRequests_iff (s : State) (r : Fin 5) : readRequests s r = true ↔
    s.dev = .online ∧ (s.fetcher r).head ≠ (s.fetcher r).tail ∧ (s.fetcher r).inFlight = none ∧
      (s.fetcher r).mirrorPending = false ∧ ownerTakes s r = true := by
  simp only [readRequests, Bool.and_eq_true, decide_eq_true_eq, bne_iff_ne, Option.isNone_iff_eq_none, Bool.not_eq_true']
  constructor
  · exact fun ⟨⟨⟨⟨hdev, howner⟩, hne⟩, hfree⟩, hmark⟩ => ⟨hdev, hne, hfree, hmark, howner⟩
  · exact fun ⟨hdev, hne, hfree, hmark, howner⟩ => ⟨⟨⟨⟨hdev, howner⟩, hne⟩, hfree⟩, hmark⟩

theorem fetcherRequests_iff (s : State) (r : Fin 5) : fetcherRequests s r = true ↔
    mirrorRequests s r = true ∨ readRequests s r = true := by
  rw [fetcherRequests, Bool.or_eq_true, or_comm]

theorem writerRequests_iff (s : State) : writerRequests s = true ↔
    (s.dev = .online ∨ s.dev = .quiescing) ∧ s.fillQueue ≠ [] ∧ s.writer.inFlight = none ∧
      s.writer.unreleased + 1 < s.writer.size := by
  simp [writerRequests, and_assoc]

/-! ### Grants -/

theorem portGrantNow_of_taken {s : State} (h : s.port ≠ none) : portGrantNow s = s := by
  obtain ⟨p, hp⟩ := Option.ne_none_iff_exists'.mp h
  rw [portGrantNow, hp]

theorem portGrantNow_of_free {s : State} (hport : s.port = none) (hdev : s.dev ≠ .starting) :
    portGrantNow s = if writerRequests s then grantWriter s else
      match nextFetcher s with
      | some r => grantFetcher r s
      | none => s := by
  rw [portGrantNow, hport]
  exact if_neg hdev

theorem grantWriter_of_filled {s : State} {e : Fin 24} {q : List (Fin 24)} {r : Report} (hq : s.fillQueue = e :: q)
    (he : s.entry e = .filled r) :
    grantWriter s = { s.setEntry e (.writing { r with seq := s.writer.seq }) with
      fillQueue := q, writer := { s.writer with inFlight := some { entry := e, slot := s.writer.tail } }
      port := some (.report e (slotAddr s.writer.base s.writer.tail) { r with seq := s.writer.seq }.bytes) } := by
  simp only [grantWriter, hq, he]

theorem grantFetcher_mirror {s : State} {r : Fin 5} (h : (s.fetcher r).mirrorPending = true) :
    grantFetcher r s = { s.modFetcher r (fun f => { f with mirrorPending := false }) with
      rr := r, port := some (.mirror r (mirrorAddr s.setupAddr r) (mirrorWord (s.fetcher r).head)) } := if_pos h

theorem grantFetcher_read {s : State} {r : Fin 5} (h : (s.fetcher r).mirrorPending = false) :
    grantFetcher r s = { s.modFetcher r (fun f => { f with inFlight := some { slot := f.head, cancelled := false } }) with
      rr := r, port := some (.fetchRead r (slotAddr (s.fetcher r).base (s.fetcher r).head)) } := if_neg (by simp [h])

theorem mirrorWord_eq (h : Nat) : mirrorWord h = BitVec.ofNat 32 (h % 1024) := by
  apply BitVec.eq_of_toNat_eq
  simp [mirrorWord]

/-- The fetchers in the order of their turns: the first that requests is granted. -/
theorem nextFetcher_of_first {s : State} {k : Fin 5} (hk : fetcherRequests s (s.rr + 1 + k) = true)
    (hfirst : ∀ j < k, fetcherRequests s (s.rr + 1 + j) = false) : nextFetcher s = some (s.rr + 1 + k) := by
  have hturns : [s.rr + 1, s.rr + 2, s.rr + 3, s.rr + 4, s.rr] =
      [s.rr + 1 + 0, s.rr + 1 + 1, s.rr + 1 + 2, s.rr + 1 + 3, s.rr + 1 + 4] := by
    generalize s.rr = r
    revert r
    decide
  rw [nextFetcher, hturns]
  match k with
  | 0 => simp only [List.find?, hk]
  | 1 => simp only [List.find?, hk, hfirst 0 (by decide)]
  | 2 => simp only [List.find?, hk, hfirst 0 (by decide), hfirst 1 (by decide)]
  | 3 => simp only [List.find?, hk, hfirst 0 (by decide), hfirst 1 (by decide), hfirst 2 (by decide)]
  | 4 => simp only [List.find?, hk, hfirst 0 (by decide), hfirst 1 (by decide), hfirst 2 (by decide), hfirst 3 (by decide)]

theorem nextFetcher_of_none {s : State} (h : ∀ r, fetcherRequests s r = false) : nextFetcher s = none := by
  simp [nextFetcher, h]

/-- Settles O23: the requests by their parties, then the grant by the order of R129. -/
theorem portGoesToWriterThenRoundRobin : Obligations.PortGoesToWriterThenRoundRobin := by
  intro s writerAsks
  rw [exec_portGrant]
  refine ⟨fun r => ?_, fun htaken => by rw [portGrantNow_of_taken htaken], fun hport hdev => ?_⟩
  · rw [fetcherRequests_iff, mirrorRequests_iff, readRequests_iff, ownerTakes_iff]
  · have hstart : s.dev ≠ .starting := by obtain h | h := hdev <;> simp [h]
    rw [portGrantNow_of_free hport hstart]
    refine ⟨fun e q r hasks hq he => ?_, fun k hnot hk hfirst => ?_, fun hnot hnone => ?_⟩
    · rw [if_pos ((writerRequests_iff s).mpr ⟨hdev, hasks⟩), grantWriter_of_filled hq he]
      exact ⟨_, rfl, rfl⟩
    · rw [if_neg fun h => hnot ((writerRequests_iff s).mp h).2, nextFetcher_of_first hk hfirst]
      refine ⟨fun hmark => ?_, fun hmark => ?_⟩
      · rw [← mirrorWord_eq]
        exact congrArg _ (grantFetcher_mirror hmark)
      · exact congrArg _ (grantFetcher_read hmark)
    · rw [if_neg fun h => hnot ((writerRequests_iff s).mp h).2, nextFetcher_of_none hnone]

/-! ### The setup block -/

theorem ringSizes_contains_iff (n : Nat) : ringSizes.contains n = true ↔ ∃ k, 3 ≤ k ∧ k ≤ 10 ∧ n = 2 ^ k := by
  rw [List.contains_iff_mem]
  constructor
  · intro h
    simp only [ringSizes, List.mem_cons, List.not_mem_nil, or_false] at h
    obtain rfl | rfl | rfl | rfl | rfl | rfl | rfl | rfl := h
    exacts [⟨3, by simp⟩, ⟨4, by simp⟩, ⟨5, by simp⟩, ⟨6, by simp⟩, ⟨7, by simp⟩, ⟨8, by simp⟩, ⟨9, by simp⟩, ⟨10, by simp⟩]
  · rintro ⟨k, hlo, hhi, rfl⟩
    interval_cases k <;> decide

/-- A ring's descriptor passes: its size is one a ring may have and its base is aligned (R168). -/
def ringPasses (l : List Block32) (r : Fin 6) : Prop :=
  ringSizes.contains (setupSize l r) = true ∧ (setupBase l r).toNat % 32 = 0

theorem judgeSetup_of_pass {l : List Block32} {rs : List (Fin 6)} (h : ∀ r ∈ rs, ringPasses l r) : judgeSetup l rs = .none := by
  induction rs with
  | nil => rfl
  | cons r rs ih =>
    obtain ⟨hsize, hbase⟩ := h r (by simp)
    rw [judgeSetup, if_neg (not_not.mpr hsize), if_neg (not_not.mpr hbase), ih fun q hq => h q (by simp [hq])]

/-- The first ring of an ascending list that fails decides the code. -/
theorem judgeSetup_of_first {l : List Block32} {rs : List (Fin 6)} {r : Fin 6} (hsorted : rs.Pairwise (· < ·)) (hr : r ∈ rs)
    (hpass : ∀ q < r, ringPasses l q) (hfail : ¬ ringPasses l r) :
    judgeSetup l rs = if ringSizes.contains (setupSize l r) then .badAlign else .badSize := by
  induction rs with
  | nil => simp at hr
  | cons q rs ih =>
    obtain ⟨hlt, hsorted⟩ := List.pairwise_cons.mp hsorted
    obtain rfl | hr := List.mem_cons.mp hr
    · rw [judgeSetup]
      by_cases hsize : ringSizes.contains (setupSize l r) = true
      · have hbase : (setupBase l r).toNat % 32 ≠ 0 := fun hbase => hfail ⟨hsize, hbase⟩
        rw [if_neg (not_not.mpr hsize), if_pos hbase, if_pos hsize]
      · rw [if_pos hsize, if_neg hsize]
    · obtain ⟨hsize, hbase⟩ := hpass q (hlt r hr)
      rw [judgeSetup, if_neg (not_not.mpr hsize), if_neg (not_not.mpr hbase), ih hsorted hr]

theorem judgeBlock_of_pass {l : List Block32} {s : State} (h : ∀ r, ringPasses l r) : judgeBlock l s = enterOnline l s := by
  rw [judgeBlock, judgeSetup_of_pass fun r _ => h r]

theorem judgeBlock_of_fail {l : List Block32} {s : State} {c : SetupCode} (h : judgeSetup l allRings = c) (hc : c ≠ .none) :
    judgeBlock l s = setupFailed c s := by
  unfold judgeBlock
  split
  next hnone => exact absurd (h.symm.trans hnone) hc
  next => rw [h]

/-- Two descriptors stand in each of the first three reads (Table 12-1). -/
theorem setupChunk_eq (d0 d1 d2 d3 : Block32) (r : Fin 6) :
    ([d0, d1, d2, d3][r.val / 2]?).getD 0 = if r.val < 2 then d0 else if r.val < 4 then d1 else d2 := by
  match r with
  | 0 | 1 | 2 | 3 | 4 | 5 => rfl

theorem setupReadEnd_last {d : Block32} {s : State} {j : Fin 4} {chunks : List Block32}
    (hread : s.setupRead = some { next := j, chunks := chunks }) :
    setupReadEnd 3 (.data d) s = judgeBlock (chunks ++ [d]) { s with port := none } := by
  simp [setupReadEnd, hread]

theorem allRings_sorted : allRings.Pairwise (· < ·) := by decide

/-- Settles O24. -/
theorem setupBlockIsJudgedInRingOrder : Obligations.SetupBlockIsJudgedInRingOrder := by
  intro s ad d0 d1 d2 d3 chunk base size sizeOk baseOk hport hread
  have hbase : ∀ r, setupBase [d0, d1, d2, d3] r = base r := fun r => by
    rw [setupBase, setupChunk_eq]
  have hsize : ∀ r, setupSize [d0, d1, d2, d3] r = size r := fun r => by
    rw [setupSize, fld, setupChunk_eq]
  have hpasses : ∀ r, ringPasses [d0, d1, d2, d3] r ↔ sizeOk r ∧ baseOk r := fun r => by
    rw [ringPasses, ringSizes_contains_iff, hbase, hsize]
  rw [exec_setupReadComplete hport, setupReadEnd_last hread]
  refine ⟨fun hall => ?_, fun r hpass hfail => ?_⟩
  · refine ⟨_, congrArg _ (judgeBlock_of_pass fun r => (hpasses r).mpr (hall r)), rfl, rfl, rfl, rfl, rfl, rfl, rfl, rfl, rfl, rfl,
      fun r => ?_, ?_, rfl, rfl, rfl, rfl⟩
    · rw [← hbase, ← hsize]
      simp [enterOnline, State.fetcher, onlineFetcher]
    · rw [← hbase, ← hsize]
      rfl
  · have hcode := judgeSetup_of_first allRings_sorted (mem_allRings r) (fun q hq => (hpasses q).mpr (hpass q hq))
      (mt (hpasses r).mp hfail)
    change Host.Outcome.next (judgeBlock [d0, d1, d2, d3] _) = _
    rw [judgeBlock_of_fail hcode (by split <;> simp), hsize]
    rfl

/-! ### Report writes -/

theorem exec_completionWriteComplete {s : State} {e : Fin 24} {ad : Addr} {v : Block32}
    (hport : s.port = some (.report e ad v)) (b : Bool) :
    exec (.completionWriteComplete b) s = .next (reportEnd e b s) := by
  change execCompletionWriteComplete b s = _
  rw [execCompletionWriteComplete, hport]

theorem countWrite_eq (s : State) :
    countWrite s = { s with
      writeCount := satInc s.writeCount, cplFlag := (countWrite s).cplFlag, holdoff := (countWrite s).holdoff } := by
  unfold countWrite
  dsimp only
  split
  next => rfl
  next =>
    split
    next => rfl
    next => split <;> rfl

theorem countWrite_of_set {s : State} (h : s.cplFlag = true) :
    (countWrite s).cplFlag = true ∧ (countWrite s).holdoff = s.holdoff := by
  simp [countWrite, h]

theorem countWrite_of_reached {s : State} (h : s.cplFlag = false) (hn : s.imod.threshold.toNat ≤ satInc s.writeCount) :
    (countWrite s).cplFlag = true ∧ (countWrite s).holdoff = none := by
  simp [countWrite, h, hn]

theorem countWrite_of_below {s : State} (h : s.cplFlag = false) (hn : satInc s.writeCount < s.imod.threshold.toNat) :
    (countWrite s).cplFlag = false ∧ (countWrite s).holdoff =
      if s.writeCount = 0 ∧ s.imod.holdoff ≠ 0 then some (50 * s.imod.holdoff.toNat) else s.holdoff := by
  have hnot : ¬ s.imod.threshold.toNat ≤ satInc s.writeCount := by omega
  by_cases hstart : s.writeCount = 0 ∧ s.imod.holdoff ≠ 0
  · rw [if_pos hstart, ← ticksOf_eq]
    have hguard : (decide (s.writeCount = 0) && s.imod.holdoff != 0) = true := by simpa using hstart
    simp only [countWrite, h, if_neg hnot, if_pos hguard, Bool.false_eq_true, if_false, and_self]
  · rw [if_neg hstart]
    have hguard : ¬ (decide (s.writeCount = 0) && s.imod.holdoff != 0) = true := by simpa using hstart
    simp only [countWrite, h, if_neg hnot, if_neg hguard, Bool.false_eq_true, if_false, and_self]

/-- What a report write leaves before it is counted (R141). -/
def reportGone (e : Fin 24) (s : State) : State :=
  { s.setEntry e .free with
    port := none
    writer := { s.writer with tail := ringNext s.writer.tail s.writer.size, seq := s.writer.seq + 1, inFlight := none } }

theorem reportEnd_of_online {e : Fin 24} {s : State} (hdev : s.dev = .online) :
    reportEnd e false s = settle (countWrite (reportGone e s)) := by
  rw [reportEnd, if_neg (by simp [hdev])]
  rfl

/-- Settles O27. -/
theorem reportWriteIsCounted : Obligations.ReportWriteIsCounted := by
  intro s e ad v hready hport n
  have hcount := countWrite_eq (reportGone e s)
  have hsettle : settle (countWrite (reportGone e s)) = countWrite (reportGone e s) := by
    refine settle_of_online ?_ ?_ <;> rw [hcount]
    exacts [hready.1, hready.2]
  rw [exec_completionWriteComplete hport, reportEnd_of_online hready.1, hsettle]
  refine ⟨_, rfl, ?_, ?_, fun hset => countWrite_of_set (s := reportGone e s) hset,
    fun hclear hn => countWrite_of_reached (s := reportGone e s) hclear hn,
    fun hclear hn => countWrite_of_below (s := reportGone e s) hclear hn⟩
  · rw [hcount]
    rfl
  · rw [hcount]
    rfl

/-! ### Control record reads -/

theorem exec_fetchReadComplete {s : State} {r : Fin 5} {ad : Addr} (hport : s.port = some (.fetchRead r ad)) (res : ReadEnd) :
    exec (.fetchReadComplete res) s = .next (fetchReadEnd r res s) := by
  change execFetchReadComplete res s = _
  rw [execFetchReadComplete, hport]

theorem takes_iff (r : Fin 5) (s : State) : takes r s = true ↔ (s.dev = .online ∨ s.dev = .quiescing) ∧
    (s.fetcher r).head ≠ (s.fetcher r).tail ∧ (r = 0 → s.interp = .waiting) := by
  simp only [takes, Bool.and_eq_true, Bool.or_eq_true, decide_eq_true_eq, bne_iff_ne, and_assoc]
  exact and_congr_right' (and_congr_right' (by tauto))

theorem fetchReadEnd_taken {r : Fin 5} {d : Block32} {s : State} {i : Nat}
    (hflight : (s.fetcher r).inFlight = some { slot := i, cancelled := false }) (htakes : takes r s = true) :
    fetchReadEnd r (.data d) s = settle (takeRecord r d s) := by
  have hdev : s.dev ≠ .failed := by
    obtain h | h := ((takes_iff r s).mp htakes).1 <;> simp [h]
  simp [fetchReadEnd, hflight, htakes, hdev]

/-- R127: a cancelled read, one in FAILED, and one that is not taken are discarded. -/
theorem fetchReadEnd_discarded {r : Fin 5} {d : Block32} {s : State} {i : Nat} {cancelled : Bool}
    (hflight : (s.fetcher r).inFlight = some { slot := i, cancelled := cancelled })
    (h : cancelled = true ∨ s.dev = .failed ∨ takes r s = false) : fetchReadEnd r (.data d) s = endFetch r s := by
  unfold fetchReadEnd
  simp only [hflight, Option.map_some, Option.getD_some]
  split
  next => rfl
  next hnot =>
    have htakes : takes r s = false := by
      obtain rfl | hdev | htakes := h
      · simp at hnot
      · simp [hdev] at hnot
      · exact htakes
    simp [htakes]

theorem CtlBody.checked_of_inRange {b : CtlBody} (h : b.inRange = true) : b.checked = b := if_pos h

/-- A record as the fetcher hands it over passes the checks again, or is marked invalid already. -/
theorem readCtlRecord_checked (d : Block32) : (readCtlRecord d).body.checked = (readCtlRecord d).body := by
  unfold readCtlRecord
  dsimp only
  split
  next b _ =>
    split
    next hrange => exact CtlBody.checked_of_inRange hrange
    next => rfl
  next => rfl

/-- The command that delivers a control record. -/
def CtlBody.instr (tag : Word) : CtlBody → Instr
  | .configureAxis a c => .configureAxis a tag c
  | .configureInputs c => .configureInputs tag c
  | .enableAxis a => .enableAxis a tag
  | .disableAxis a => .disableAxis a tag
  | .stopAxis a v => .stopAxis a tag v
  | .abortAxis a => .abortAxis a tag
  | .clearFault a resume realign => .clearFault a tag resume realign
  | .defineGroup g m reusable timeout => .defineGroup g tag m reusable timeout
  | .clearGroup g => .clearGroup g tag
  | .setCaptureArm a src n => .setCaptureArm a tag src n
  | .setCaptureDisarm a => .setCaptureDisarm a tag
  | .readStatus a => .readStatus a tag
  | .nop => .nop tag
  | .invalid kind index => .invalidControlRecord kind index tag

theorem exec_instr (tag : Word) (b : CtlBody) (s : State) : exec (b.instr tag) s = .next (deliverCommand tag b s) := by
  cases b <;> rfl

theorem takesControl_of {s : State} (hdev : s.dev = .online ∨ s.dev = .quiescing) (hinterp : s.interp = .waiting) :
    s.takesControl = true := by
  obtain h | h := hdev <;> simp [State.takesControl, h, hinterp]

theorem deliverCommand_of_takes {tag : Word} {b : CtlBody} {s : State} (h : s.takesControl = true) (hb : b.checked = b) :
    deliverCommand tag b s = settle (judgeRecord { tag := tag, body := b } s) := by
  rw [deliverCommand, if_pos h, hb]

/-- Settles O26. -/
theorem controlReadReachesTheInterpreter : Obligations.ControlReadReachesTheInterpreter := by
  intro s ad d i cancelled f tag record hport hflight
  have hrecord : record = (readCtlRecord d).body.instr tag := by
    change (match (readCtlRecord d).body with | _ => _) = _
    cases (readCtlRecord d).body <;> rfl
  rw [exec_fetchReadComplete hport]
  refine ⟨?taken, fun hdiscard => ?_⟩
  case taken =>
    rintro rfl hdev hinterp hne
    have htakes : takes 0 s = true := (takes_iff 0 s).mpr ⟨hdev, hne, fun _ => hinterp⟩
    rw [fetchReadEnd_taken hflight htakes, hrecord, exec_instr, deliverCommand_of_takes ?_ (readCtlRecord_checked d),
      ← mirrorWord_eq]
    · rfl
    · exact takesControl_of hdev hinterp
  case _ =>
    rw [fetchReadEnd_discarded hflight ?_]
    · rfl
    · refine hdiscard.imp_right fun h => .inr ?_
      rw [Bool.eq_false_iff, ne_eq, takes_iff]
      rintro ⟨hdev, hne, hinterp⟩
      obtain heq | ⟨hon, hq⟩ | hheld := h
      · exact hne heq
      · exact hdev.elim hon hq
      · exact hheld (hinterp rfl)

end Sys2Proof.Machine
end

section
/-! PROOFS. The record formats (12.2 to 12.4): a record is marked invalid exactly where one of the checks of its kind fails. -/

namespace Sys2Proof.Machine
open Sys2Proof

/-! ### Fields and the bits they cover -/

/-- Bit `i` lies in one of the fields of a list. -/
def covered (l : List (Nat × Nat)) (i : Nat) : Bool := l.any fun p => p.1 ≤ i && i < p.1 + p.2

theorem mask_bit (lo n i : Nat) (hi : i < 256) :
    (BitVec.ofNat 256 (2 ^ n - 1) <<< lo).getLsbD i = (decide (lo ≤ i) && decide (i < lo + n)) := by
  simp only [BitVec.getLsbD_shiftLeft, BitVec.getLsbD_ofNat, Nat.testBit_two_pow_sub_one, hi, decide_true, Bool.true_and]
  by_cases hlo : lo ≤ i
  · have hlt : i - lo < 256 := by omega
    have hiff : i - lo < n ↔ i < lo + n := by omega
    simp [hlo, hlt, hiff, Nat.not_lt.mpr hlo]
  · simp [hlo, Nat.lt_of_not_le hlo]

theorem maskOf_bit (l : List (Nat × Nat)) (i : Nat) (hi : i < 256) : (maskOf l).getLsbD i = covered l i := by
  have hfold : ∀ (l : List (Nat × Nat)) (m : Block32),
      (l.foldl (fun m p => m ||| (BitVec.ofNat 256 (2 ^ p.2 - 1) <<< p.1)) m).getLsbD i = (m.getLsbD i || covered l i) := by
    intro l
    induction l with
    | nil => simp [covered]
    | cons p l ih =>
      intro m
      rw [List.foldl_cons, ih, BitVec.getLsbD_or, mask_bit _ _ _ hi, covered, covered, List.any_cons, Bool.or_assoc]
  rw [maskOf, hfold]
  simp

theorem onlyFields_iff_bits (d : Block32) (l : List (Nat × Nat)) :
    onlyFields d l = true ↔ ∀ i < 256, d.getLsbD i = true → covered l i = true := by
  rw [onlyFields, beq_iff_eq]
  constructor
  · intro h i hi hd
    have hbit := congrArg (fun v : Block32 => v.getLsbD i) h
    rw [← maskOf_bit l i hi]
    simpa [hi, hd] using hbit
  · intro h
    refine BitVec.eq_of_getLsbD_eq fun i hi => ?_
    have hbit := h i hi
    rw [← maskOf_bit l i hi] at hbit
    cases hd : d.getLsbD i <;> simp_all

/-- A field is 0. -/
def Clear (d : Block32) (lo n : Nat) : Prop := d.extractLsb' lo n = 0

theorem clear_iff_bits (d : Block32) (lo n : Nat) : Clear d lo n ↔ ∀ i, lo ≤ i → i < lo + n → d.getLsbD i = false := by
  unfold Clear
  constructor
  · intro h i hlo hhi
    have hbit := congrArg (fun v => v.getLsbD (i - lo)) h
    have hlt : i - lo < n := by omega
    have hadd : lo + (i - lo) = i := by omega
    simpa [hlt, hadd] using hbit
  · intro h
    refine BitVec.eq_of_getLsbD_eq fun i hi => ?_
    simp [h (lo + i) (by omega) (by omega)]

/-- A record has no bit outside its fields exactly where every gap between them is 0. -/
theorem onlyFields_iff_gaps {d : Block32} {l : List (Nat × Nat)} (gaps : List (Nat × Nat))
    (hmask : maskOf l = ~~~ maskOf gaps) : onlyFields d l = true ↔ ∀ p ∈ gaps, Clear d p.1 p.2 := by
  have h : ∀ i < 256, covered l i = ! covered gaps i := fun i hi => by
    rw [← maskOf_bit l i hi, ← maskOf_bit gaps i hi, hmask, BitVec.getLsbD_not]
    simp [hi]
  rw [onlyFields_iff_bits]
  constructor
  · intro hbits p hp
    refine (clear_iff_bits ..).mpr fun i hlo hhi => ?_
    by_cases hi : i < 256
    · have hgap : covered gaps i = true := List.any_eq_true.mpr ⟨p, hp, by simp [hlo, hhi]⟩
      have hnot := h i hi
      rw [hgap] at hnot
      exact Bool.eq_false_iff.mpr fun hd => by simp [hbits i hi hd] at hnot
    · exact BitVec.getLsbD_of_ge d i (by omega)
  · intro hclear i hi hd
    rw [h i hi, Bool.not_eq_true', Bool.eq_false_iff]
    intro hgap
    obtain ⟨p, hp, hin⟩ := List.any_eq_true.mp hgap
    obtain ⟨hlo, hhi⟩ := by simpa only [Bool.and_eq_true, decide_eq_true_eq] using hin
    have hzero := (clear_iff_bits ..).mp (hclear p hp) i hlo hhi
    simp [hd] at hzero

/-! ### Codes -/

theorem dirOfCode_isSome_iff (n : Nat) : (∃ x, dirOfCode n = some x) ↔ n ≤ 1 := by
  match n with
  | 0 | 1 | _ + 2 => simp [dirOfCode]

theorem exitOfCode_isSome_iff (n : Nat) : (∃ x, exitOfCode n = some x) ↔ n ≤ 1 := by
  match n with
  | 0 | 1 | _ + 2 => simp [exitOfCode]

theorem policyOfCode_isSome_iff (n : Nat) : (∃ x, policyOfCode n = some x) ↔ n ≤ 1 := by
  match n with
  | 0 | 1 | _ + 2 => simp [policyOfCode]

theorem sourceOfCode_isSome_iff (n : Nat) : (∃ x, sourceOfCode n = some x) ↔ n ≤ 5 := by
  match n with
  | 0 | 1 | 2 | 3 | 4 | 5 | _ + 6 => simp [sourceOfCode]

theorem lineSourceOfCode_isSome_iff (n : Nat) : (∃ x, lineSourceOfCode n = some x) ↔ n ≤ 4 := by
  match n with
  | 0 | 1 | 2 | 3 | 4 | _ + 5 => simp [lineSourceOfCode]

theorem optIn_optField (p : Bool) (v lo hi : Nat) : optIn (optField p v) lo hi = true ↔ (p = true → lo ≤ v ∧ v ≤ hi) := by
  cases p <;> simp [optIn, optField]

theorem fld_lt (d : Block32) (lo n : Nat) : fld d lo n < 2 ^ n := (d.extractLsb' lo n).isLt

theorem fld_eq_zero_of_clear {d : Block32} {lo n : Nat} (h : Clear d lo n) : fld d lo n = 0 := by
  rw [fld, h]
  rfl

/-! ### Axis records -/

/-- The record has the encoding of a kind and passes its range checks. -/
def AxisReads (d : Block32) : Prop := ∃ b, readAxisBody d = some b ∧ b.inRange = true

theorem readAxisRecord_of_reads {d : Block32} {b : AxisBody} (h : readAxisBody d = some b) (hr : b.inRange = true) :
    readAxisRecord d = { tag := headerTag d, report := headerReport d, body := b } := by
  simp [readAxisRecord, h, hr]

theorem readAxisRecord_of_not {d : Block32} (h : ¬ AxisReads d) :
    readAxisRecord d = { tag := headerTag d, report := headerReport d, body := .invalid (headerKind d) } := by
  unfold readAxisRecord
  congr 1
  split
  next b hb => exact if_neg fun hr => h ⟨b, hb, hr⟩
  next => rfl

theorem readAxisRecord_valid {d : Block32} (h : AxisReads d) (k : BitVec 5) : (readAxisRecord d).body ≠ .invalid k := by
  obtain ⟨b, hb, hr⟩ := h
  rw [readAxisRecord_of_reads hb hr]
  rintro rfl
  simp [AxisBody.inRange] at hr

/-- The fields of a MOVE (Table 12-5). -/
def moveFields (d : Block32) : List (Nat × Nat) :=
  axisHeader ++ [(24, 2), (64, 24), (128, 32), (160, 8), (168, 8)] ++ whenPresent (present d 0) [(96, 32)]
    ++ whenPresent (present d 1) [(176, 8)]

/-- The fields of a DWELL. -/
def dwellFields (d : Block32) : List (Nat × Nat) :=
  axisHeader ++ [(25, 1), (64, 24)] ++ whenPresent (present d 1) [(96, 8)]

/-- The fields of a WAIT. -/
def waitFields (d : Block32) : List (Nat × Nat) :=
  axisHeader ++ [(26, 2), (64, 8), (72, 8)] ++ whenPresent (present d 2) [(96, 24)] ++ whenPresent (present d 3) [(128, 32)]

/-- The fields of a SETPOS. -/
def setposFields (d : Block32) : List (Nat × Nat) :=
  axisHeader ++ [(28, 2)] ++ whenPresent (present d 4) [(64, 32)] ++ whenPresent (present d 5) [(96, 32)]

theorem readAxisBody_move_iff {d : Block32} {b : AxisBody} (hk : headerKind d = 0x01) : readAxisBody d = some b ↔
    onlyFields d (moveFields d) = true ∧ ∃ dir ex, ∃ h : fld d 176 8 < 8, dirOfCode (fld d 160 8) = some dir ∧
      exitOfCode (fld d 168 8) = some ex ∧ b = .move {
        dir := dir, steps := fld d 64 24, startRate := optField (present d 0) (fld d 96 32),
        delta := (word d 128).toInt, exit := ex, sync := optField (present d 1) ⟨fld d 176 8, h⟩ } := by
  rw [readAxisBody, if_pos hk, ← moveFields]
  constructor
  · intro h
    split at h
    next honly =>
      split at h
      next dir ex hdir hex =>
        split at h
        next hgroup => exact ⟨honly, dir, ex, hgroup, hdir, hex, (Option.some.inj h).symm⟩
        next => simp at h
      next => simp at h
    next => simp at h
  · rintro ⟨honly, dir, ex, hgroup, hdir, hex, rfl⟩
    simp only [honly, hdir, hex, if_true, dif_pos hgroup]

theorem readAxisBody_dwell_iff {d : Block32} {b : AxisBody} (hk : headerKind d = 0x02) : readAxisBody d = some b ↔
    onlyFields d (dwellFields d) = true ∧ ∃ h : fld d 96 8 < 8,
      b = .dwell (fld d 64 24) (optField (present d 1) ⟨fld d 96 8, h⟩) := by
  rw [readAxisBody, if_neg (by rw [hk]; decide), if_pos hk, ← dwellFields]
  constructor
  · intro h
    split at h
    next honly =>
      split at h
      next hgroup => exact ⟨honly, hgroup, (Option.some.inj h).symm⟩
      next => simp at h
    next => simp at h
  · rintro ⟨honly, hgroup, rfl⟩
    simp only [honly, if_true, dif_pos hgroup]

theorem readAxisBody_wait_iff {d : Block32} {b : AxisBody} (hk : headerKind d = 0x03) : readAxisBody d = some b ↔
    onlyFields d (waitFields d) = true ∧ ∃ src pol, sourceOfCode (fld d 64 8) = some src ∧
      policyOfCode (fld d 72 8) = some pol ∧ b = .wait {
        src := src, policy := pol, timeout := optField (present d 2) (fld d 96 24),
        ref := optField (present d 3) (word d 128) } := by
  rw [readAxisBody, if_neg (by rw [hk]; decide), if_neg (by rw [hk]; decide), if_pos hk, ← waitFields]
  constructor
  · intro h
    split at h
    next honly =>
      split at h
      next src pol hsrc hpol => exact ⟨honly, src, pol, hsrc, hpol, (Option.some.inj h).symm⟩
      next => simp at h
    next => simp at h
  · rintro ⟨honly, src, pol, hsrc, hpol, rfl⟩
    simp only [honly, hsrc, hpol, if_true]

theorem readAxisBody_setpos {d : Block32} (hk : headerKind d = 0x04) : readAxisBody d =
    if onlyFields d (setposFields d) then
      some (.setpos (optField (present d 4) (word d 64)) (optField (present d 5) (word d 96)))
    else none := by
  rw [readAxisBody, if_neg (by rw [hk]; decide), if_neg (by rw [hk]; decide), if_neg (by rw [hk]; decide), if_pos hk,
    setposFields]

theorem readAxisBody_mark {d : Block32} (hk : headerKind d = 0x05) :
    readAxisBody d = if onlyFields d axisHeader then some .mark else none := by
  rw [readAxisBody, if_neg (by rw [hk]; decide), if_neg (by rw [hk]; decide), if_neg (by rw [hk]; decide),
    if_neg (by rw [hk]; decide), if_pos hk]

theorem readAxisBody_unknown {d : Block32} (hk : headerKind d = 0 ∨ 5 < (headerKind d).toNat) : readAxisBody d = none := by
  have hne : ∀ k : BitVec 5, 1 ≤ k.toNat → k.toNat ≤ 5 → headerKind d ≠ k := by
    rintro k hlo hhi rfl
    obtain h | h := hk
    · simp [h] at hlo
    · omega
  rw [readAxisBody, if_neg (hne 1 (by decide) (by decide)), if_neg (hne 2 (by decide) (by decide)),
    if_neg (hne 3 (by decide) (by decide)), if_neg (hne 4 (by decide) (by decide)), if_neg (hne 5 (by decide) (by decide))]

/-! ### The range checks of an axis record -/

theorem axisReads_move {d : Block32} (hk : headerKind d = 0x01) : AxisReads d ↔
    onlyFields d (moveFields d) = true ∧ fld d 160 8 ≤ 1 ∧ fld d 168 8 ≤ 1 ∧ fld d 176 8 < 8 ∧ 1 ≤ fld d 64 24 ∧
      (present d 0 = true → fld d 96 32 ≤ 262144) ∧ -65536 ≤ (word d 128).toInt ∧ (word d 128).toInt ≤ 65536 := by
  have hsteps := fld_lt d 64 24
  rw [← dirOfCode_isSome_iff, ← exitOfCode_isSome_iff]
  simp only [AxisReads, readAxisBody_move_iff hk]
  constructor
  · rintro ⟨_, ⟨honly, dir, ex, hgroup, hdir, hex, rfl⟩, hr⟩
    simp only [AxisBody.inRange, Bool.and_eq_true, decide_eq_true_eq, optIn_optField] at hr
    obtain ⟨⟨⟨hpos, -⟩, hrate⟩, hlo, hhi⟩ := hr
    exact ⟨honly, ⟨dir, hdir⟩, ⟨ex, hex⟩, hgroup, hpos, fun h => (hrate h).2, hlo, hhi⟩
  · rintro ⟨honly, ⟨dir, hdir⟩, ⟨ex, hex⟩, hgroup, hpos, hrate, hlo, hhi⟩
    refine ⟨_, ⟨honly, dir, ex, hgroup, hdir, hex, rfl⟩, ?_⟩
    simp only [AxisBody.inRange, Bool.and_eq_true, decide_eq_true_eq, optIn_optField]
    exact ⟨⟨⟨hpos, by omega⟩, fun h => ⟨Nat.zero_le _, hrate h⟩⟩, hlo, hhi⟩

theorem axisReads_dwell {d : Block32} (hk : headerKind d = 0x02) : AxisReads d ↔
    onlyFields d (dwellFields d) = true ∧ fld d 96 8 < 8 ∧ 1 ≤ fld d 64 24 := by
  have hduration := fld_lt d 64 24
  simp only [AxisReads, readAxisBody_dwell_iff hk]
  constructor
  · rintro ⟨_, ⟨honly, hgroup, rfl⟩, hr⟩
    simp only [AxisBody.inRange, Bool.and_eq_true, decide_eq_true_eq] at hr
    exact ⟨honly, hgroup, hr.1⟩
  · rintro ⟨honly, hgroup, hpos⟩
    refine ⟨_, ⟨honly, hgroup, rfl⟩, ?_⟩
    simp only [AxisBody.inRange, Bool.and_eq_true, decide_eq_true_eq]
    exact ⟨hpos, by omega⟩

theorem axisReads_wait {d : Block32} (hk : headerKind d = 0x03) : AxisReads d ↔
    onlyFields d (waitFields d) = true ∧ fld d 64 8 ≤ 5 ∧ fld d 72 8 ≤ 1 ∧ (present d 2 = true → 1 ≤ fld d 96 24) := by
  have htimeout := fld_lt d 96 24
  rw [← sourceOfCode_isSome_iff, ← policyOfCode_isSome_iff]
  simp only [AxisReads, readAxisBody_wait_iff hk]
  constructor
  · rintro ⟨_, ⟨honly, src, pol, hsrc, hpol, rfl⟩, hr⟩
    simp only [AxisBody.inRange, optIn_optField] at hr
    exact ⟨honly, ⟨src, hsrc⟩, ⟨pol, hpol⟩, fun h => (hr h).1⟩
  · rintro ⟨honly, ⟨src, hsrc⟩, ⟨pol, hpol⟩, hpos⟩
    refine ⟨_, ⟨honly, src, pol, hsrc, hpol, rfl⟩, ?_⟩
    simp only [AxisBody.inRange, optIn_optField]
    exact fun h => ⟨hpos h, by omega⟩

theorem axisReads_setpos {d : Block32} (hk : headerKind d = 0x04) : AxisReads d ↔
    onlyFields d (setposFields d) = true ∧ (present d 4 = true ∨ present d 5 = true) := by
  rw [AxisReads, readAxisBody_setpos hk]
  cases onlyFields d (setposFields d) <;> cases present d 4 <;> cases present d 5 <;>
    simp [AxisBody.inRange, optField]

theorem axisReads_mark {d : Block32} (hk : headerKind d = 0x05) : AxisReads d ↔ onlyFields d axisHeader = true := by
  rw [AxisReads, readAxisBody_mark hk]
  cases onlyFields d axisHeader <;> simp [AxisBody.inRange]

theorem not_axisReads_unknown {d : Block32} (hk : headerKind d = 0 ∨ 5 < (headerKind d).toNat) : ¬ AxisReads d := by
  rw [AxisReads, readAxisBody_unknown hk]
  simp

/-! ### The gaps of an axis record -/

theorem onlyFields_move (d : Block32) : onlyFields d (moveFields d) = true ↔
    Clear d 5 3 ∧ Clear d 9 15 ∧ Clear d 26 6 ∧ Clear d 88 8 ∧ Clear d 184 72 ∧ (present d 0 = false → Clear d 96 32) ∧
      (present d 1 = false → Clear d 176 8) := by
  have hgaps : ∀ p q : Bool, maskOf (axisHeader ++ [(24, 2), (64, 24), (128, 32), (160, 8), (168, 8)]
      ++ whenPresent p [(96, 32)] ++ whenPresent q [(176, 8)]) =
      ~~~ maskOf ([(5, 3), (9, 15), (26, 6), (88, 8), (184, 72)] ++ whenPresent (! p) [(96, 32)]
        ++ whenPresent (! q) [(176, 8)]) := by
    decide
  rw [moveFields, onlyFields_iff_gaps _ (hgaps _ _)]
  cases present d 0 <;> cases present d 1 <;> simp [whenPresent]

theorem onlyFields_dwell (d : Block32) : onlyFields d (dwellFields d) = true ↔
    Clear d 5 3 ∧ Clear d 9 15 ∧ Clear d 24 1 ∧ Clear d 26 6 ∧ Clear d 88 8 ∧ Clear d 104 152 ∧
      (present d 1 = false → Clear d 96 8) := by
  have hgaps : ∀ p : Bool, maskOf (axisHeader ++ [(25, 1), (64, 24)] ++ whenPresent p [(96, 8)]) =
      ~~~ maskOf ([(5, 3), (9, 15), (24, 1), (26, 6), (88, 8), (104, 152)] ++ whenPresent (! p) [(96, 8)]) := by
    decide
  rw [dwellFields, onlyFields_iff_gaps _ (hgaps _)]
  cases present d 1 <;> simp [whenPresent]

theorem onlyFields_wait (d : Block32) : onlyFields d (waitFields d) = true ↔
    Clear d 5 3 ∧ Clear d 9 15 ∧ Clear d 24 2 ∧ Clear d 28 4 ∧ Clear d 80 16 ∧ Clear d 120 8 ∧ Clear d 160 96 ∧
      (present d 2 = false → Clear d 96 24) ∧ (present d 3 = false → Clear d 128 32) := by
  have hgaps : ∀ p q : Bool, maskOf (axisHeader ++ [(26, 2), (64, 8), (72, 8)] ++ whenPresent p [(96, 24)]
      ++ whenPresent q [(128, 32)]) =
      ~~~ maskOf ([(5, 3), (9, 15), (24, 2), (28, 4), (80, 16), (120, 8), (160, 96)] ++ whenPresent (! p) [(96, 24)]
        ++ whenPresent (! q) [(128, 32)]) := by
    decide
  rw [waitFields, onlyFields_iff_gaps _ (hgaps _ _)]
  cases present d 2 <;> cases present d 3 <;> simp [whenPresent]

theorem onlyFields_setpos (d : Block32) : onlyFields d (setposFields d) = true ↔
    Clear d 5 3 ∧ Clear d 9 15 ∧ Clear d 24 4 ∧ Clear d 30 2 ∧ Clear d 128 128 ∧
      (present d 4 = false → Clear d 64 32) ∧ (present d 5 = false → Clear d 96 32) := by
  have hgaps : ∀ p q : Bool, maskOf (axisHeader ++ [(28, 2)] ++ whenPresent p [(64, 32)]
      ++ whenPresent q [(96, 32)]) =
      ~~~ maskOf ([(5, 3), (9, 15), (24, 4), (30, 2), (128, 128)] ++ whenPresent (! p) [(64, 32)]
        ++ whenPresent (! q) [(96, 32)]) := by
    decide
  rw [setposFields, onlyFields_iff_gaps _ (hgaps _ _)]
  cases present d 4 <;> cases present d 5 <;> simp [whenPresent]

theorem onlyFields_mark (d : Block32) : onlyFields d axisHeader = true ↔
    Clear d 5 3 ∧ Clear d 9 15 ∧ Clear d 24 8 ∧ Clear d 64 192 := by
  rw [onlyFields_iff_gaps [(5, 3), (9, 15), (24, 8), (64, 192)] (by decide)]
  simp

end Sys2Proof.Machine
end

section
/-! PROOFS. The control record formats (12.4): a record is marked invalid exactly where one of the checks of its kind fails. -/

namespace Sys2Proof.Machine
open Sys2Proof

/-! ### Control records -/

/-- The record has the encoding of a kind and passes its range checks. -/
def CtlReads (d : Block32) : Prop := ∃ b, readCtlBody d = some b ∧ b.inRange = true

theorem readCtlRecord_of_reads {d : Block32} {b : CtlBody} (h : readCtlBody d = some b) (hr : b.inRange = true) :
    readCtlRecord d = { tag := headerTag d, body := b } := by
  simp [readCtlRecord, h, hr]

theorem readCtlRecord_of_not {d : Block32} (h : ¬ CtlReads d) :
    readCtlRecord d = { tag := headerTag d, body := .invalid (headerKind d) (headerIndex d) } := by
  unfold readCtlRecord
  congr 1
  split
  next b hb => exact if_neg fun hr => h ⟨b, hb, hr⟩
  next => rfl

theorem readCtlRecord_valid {d : Block32} (h : CtlReads d) (k : BitVec 5) (n : BitVec 8) :
    (readCtlRecord d).body ≠ .invalid k n := by
  obtain ⟨b, hb, hr⟩ := h
  rw [readCtlRecord_of_reads hb hr]
  rintro rfl
  simp [CtlBody.inRange] at hr

theorem withAxis_eq_some_iff (d : Block32) (f : Axis → CtlBody) (b : CtlBody) :
    withAxis d f = some b ↔ ∃ h : (headerIndex d).toNat < 4, b = f ⟨(headerIndex d).toNat, h⟩ := by
  unfold withAxis
  split
  next h => simp [h, eq_comm]
  next h => simp [h]

theorem withGroup_eq_some_iff (d : Block32) (f : GroupIx → CtlBody) (b : CtlBody) :
    withGroup d f = some b ↔ ∃ h : (headerIndex d).toNat < 8, b = f ⟨(headerIndex d).toNat, h⟩ := by
  unfold withGroup
  split
  next h => simp [h, eq_comm]
  next h => simp [h]

theorem ite_none_eq_some_iff {α : Type} {c : Prop} [Decidable c] {x : Option α} {b : α} :
    (if c then x else none) = some b ↔ c ∧ x = some b := by
  split <;> simp_all

/-- The fields of a CONFIGURE_AXIS (Table 12-6). -/
def configureFields : List (Nat × Nat) :=
  indexHeader ++ [(64, 16), (80, 16), (96, 32), (128, 32), (160, 32), (192, 32), (224, 8), (232, 7), (240, 8), (248, 3), (252, 3)]

/-- The fields of a CONFIGURE_INPUTS. -/
def inputsFields : List (Nat × Nat) := plainHeader ++ [(64, 8), (72, 8), (80, 16), (96, 12)]

/-- The fields of a STOP_AXIS. -/
def stopFields (d : Block32) : List (Nat × Nat) := indexHeader ++ [(30, 1)] ++ whenPresent (present d 6) [(64, 32)]

/-- The fields of a DEFINE_GROUP. -/
def defineFields (d : Block32) : List (Nat × Nat) :=
  indexHeader ++ [(26, 1), (64, 4), (72, 1)] ++ whenPresent (present d 2) [(80, 16)]

/-- The fields of a SET_CAPTURE with action ARM. -/
def armFields (d : Block32) : List (Nat × Nat) :=
  indexHeader ++ [(31, 1), (64, 8), (72, 8)] ++ whenPresent (present d 7) [(80, 8)]

/-- The settings a CONFIGURE_INPUTS carries. -/
def inputsOf (d : Block32) : InputsConfig where
  fastDepth := fld d 64 8
  slowDepth := fld d 72 8
  slowInterval := fld d 80 16
  polarity := d.extractLsb' 96 12

/-- The commands that carry an index and no further field. -/
def bareCommand (k : BitVec 5) : Option (Axis → CtlBody) :=
  if k = 0x12 then some .enableAxis else if k = 0x13 then some .disableAxis else if k = 0x15 then some .abortAxis
  else if k = 0x1A then some .readStatus else none

section
variable {d : Block32} {b : CtlBody}

theorem readCtlBody_configureAxis (hk : headerKind d = 0x10) : readCtlBody d = some b ↔
    onlyFields d configureFields = true ∧ ∃ c, readAxisConfig d = some c ∧
      ∃ h : (headerIndex d).toNat < 4, b = .configureAxis ⟨(headerIndex d).toNat, h⟩ c := by
  have hread : readCtlBody d = if onlyFields d configureFields then
      (readAxisConfig d).bind fun c => withAxis d fun a => .configureAxis a c else none := by
    rw [readCtlBody, hk]
    rfl
  simp only [hread, ite_none_eq_some_iff, Option.bind_eq_some_iff, withAxis_eq_some_iff]

theorem readCtlBody_configureInputs (hk : headerKind d = 0x11) : readCtlBody d = some b ↔
    onlyFields d inputsFields = true ∧ b = .configureInputs (inputsOf d) := by
  have hread : readCtlBody d = if onlyFields d inputsFields then some (.configureInputs (inputsOf d)) else none := by
    rw [readCtlBody, hk]
    rfl
  simp only [hread, ite_none_eq_some_iff, Option.some.injEq, eq_comm (b := b)]

theorem readCtlBody_bare {f : Axis → CtlBody} (hk : bareCommand (headerKind d) = some f) : readCtlBody d = some b ↔
    onlyFields d indexHeader = true ∧ ∃ h : (headerIndex d).toNat < 4, b = f ⟨(headerIndex d).toNat, h⟩ := by
  have hread : readCtlBody d = readIndexed d f := by
    unfold bareCommand at hk
    unfold readCtlBody
    split at hk
    next h => cases hk; rw [h]; rfl
    next =>
      split at hk
      next h => cases hk; rw [h]; rfl
      next =>
        split at hk
        next h => cases hk; rw [h]; rfl
        next =>
          split at hk
          next h => cases hk; rw [h]; rfl
          next => simp at hk
  rw [hread, readIndexed, ite_none_eq_some_iff, withAxis_eq_some_iff]

theorem readCtlBody_stopAxis (hk : headerKind d = 0x14) : readCtlBody d = some b ↔
    onlyFields d (stopFields d) = true ∧ ∃ h : (headerIndex d).toNat < 4,
      b = .stopAxis ⟨(headerIndex d).toNat, h⟩ (optField (present d 6) (fld d 64 32)) := by
  have hread : readCtlBody d = if onlyFields d (stopFields d) then 
      withAxis d fun a => .stopAxis a (optField (present d 6) (fld d 64 32)) else none := by
    rw [readCtlBody, hk]
    rfl
  rw [hread, ite_none_eq_some_iff, withAxis_eq_some_iff]

theorem readCtlBody_clearFault (hk : headerKind d = 0x16) : readCtlBody d = some b ↔
    onlyFields d (indexHeader ++ [(64, 2)]) = true ∧ ∃ h : (headerIndex d).toNat < 4,
      b = .clearFault ⟨(headerIndex d).toNat, h⟩ (bit d 64) (bit d 65) := by
  have hread : readCtlBody d = if onlyFields d (indexHeader ++ [(64, 2)]) then 
      withAxis d fun a => .clearFault a (bit d 64) (bit d 65) else none := by
    rw [readCtlBody, hk]
    rfl
  rw [hread, ite_none_eq_some_iff, withAxis_eq_some_iff]

theorem readCtlBody_defineGroup (hk : headerKind d = 0x17) : readCtlBody d = some b ↔
    onlyFields d (defineFields d) = true ∧ ∃ h : (headerIndex d).toNat < 8,
      b = .defineGroup ⟨(headerIndex d).toNat, h⟩ (d.extractLsb' 64 4) (bit d 72) (optField (present d 2) (fld d 80 16)) := by
  have hread : readCtlBody d = if onlyFields d (defineFields d) then 
      withGroup d fun g => .defineGroup g (d.extractLsb' 64 4) (bit d 72) (optField (present d 2) (fld d 80 16)) else none := by
    rw [readCtlBody, hk]
    rfl
  rw [hread, ite_none_eq_some_iff, withGroup_eq_some_iff]

theorem readCtlBody_clearGroup (hk : headerKind d = 0x18) : readCtlBody d = some b ↔
    onlyFields d indexHeader = true ∧ ∃ h : (headerIndex d).toNat < 8, b = .clearGroup ⟨(headerIndex d).toNat, h⟩ := by
  have hread : readCtlBody d = if onlyFields d indexHeader then withGroup d .clearGroup else none := by
    rw [readCtlBody, hk]
    rfl
  rw [hread, ite_none_eq_some_iff, withGroup_eq_some_iff]

theorem readCtlBody_arm (hk : headerKind d = 0x19) (ha : fld d 64 8 = 0) : readCtlBody d = some b ↔
    onlyFields d (armFields d) = true ∧ ∃ src, sourceOfCode (fld d 72 8) = some src ∧
      ∃ h : (headerIndex d).toNat < 4,
        b = .setCaptureArm ⟨(headerIndex d).toNat, h⟩ src (optField (present d 7) (fld d 80 8)) := by
  have hread : readCtlBody d = if onlyFields d (armFields d) then 
      (sourceOfCode (fld d 72 8)).bind fun src =>
        withAxis d fun a => .setCaptureArm a src (optField (present d 7) (fld d 80 8)) else none := by
    rw [readCtlBody, hk, ha]
    rfl
  simp only [hread, ite_none_eq_some_iff, Option.bind_eq_some_iff, withAxis_eq_some_iff]

theorem readCtlBody_disarm (hk : headerKind d = 0x19) (ha : fld d 64 8 = 1) : readCtlBody d = some b ↔
    onlyFields d (indexHeader ++ [(64, 8)]) = true ∧ ∃ h : (headerIndex d).toNat < 4,
      b = .setCaptureDisarm ⟨(headerIndex d).toNat, h⟩ := by
  have hread : readCtlBody d = if onlyFields d (indexHeader ++ [(64, 8)]) then withAxis d .setCaptureDisarm else none := by
    rw [readCtlBody, hk, ha]
    rfl
  rw [hread, ite_none_eq_some_iff, withAxis_eq_some_iff]

theorem readCtlBody_action (hk : headerKind d = 0x19) (ha : 1 < fld d 64 8) : readCtlBody d = none := by
  have hread : readCtlBody d = if fld d 64 8 = 0 then
        if onlyFields d (armFields d) then
          (sourceOfCode (fld d 72 8)).bind fun src =>
            withAxis d fun a => .setCaptureArm a src (optField (present d 7) (fld d 80 8))
        else none
      else if fld d 64 8 = 1 then
        if onlyFields d (indexHeader ++ [(64, 8)]) then withAxis d .setCaptureDisarm else none
      else none := by
    rw [readCtlBody, hk]
    rfl
  rw [hread, if_neg (by omega), if_neg (by omega)]

theorem readCtlBody_nop (hk : headerKind d = 0x1B) : readCtlBody d = some b ↔ onlyFields d plainHeader = true ∧ b = .nop := by
  have hread : readCtlBody d = if onlyFields d plainHeader then some .nop else none := by
    rw [readCtlBody, hk]
    rfl
  simp only [hread, ite_none_eq_some_iff, Option.some.injEq, eq_comm (b := b)]

theorem readCtlBody_unknown (hk : (headerKind d).toNat < 0x10 ∨ 0x1B < (headerKind d).toNat) : readCtlBody d = none := by
  have hne : ∀ k : BitVec 5, 0x10 ≤ k.toNat → k.toNat ≤ 0x1B → headerKind d ≠ k := by
    rintro k hlo hhi rfl
    omega
  rw [readCtlBody, if_neg (hne 0x10 (by decide) (by decide)), if_neg (hne 0x11 (by decide) (by decide)),
    if_neg (hne 0x12 (by decide) (by decide)), if_neg (hne 0x13 (by decide) (by decide)),
    if_neg (hne 0x14 (by decide) (by decide)), if_neg (hne 0x15 (by decide) (by decide)),
    if_neg (hne 0x16 (by decide) (by decide)), if_neg (hne 0x17 (by decide) (by decide)),
    if_neg (hne 0x18 (by decide) (by decide)), if_neg (hne 0x19 (by decide) (by decide)),
    if_neg (hne 0x1A (by decide) (by decide)), if_neg (hne 0x1B (by decide) (by decide))]

/-! ### The range checks of a control record -/

theorem readAxisConfig_isSome_iff (d : Block32) : (∃ c, readAxisConfig d = some c) ↔ fld d 248 3 ≤ 4 ∧ fld d 252 3 ≤ 4 := by
  rw [← lineSourceOfCode_isSome_iff, ← lineSourceOfCode_isSome_iff, readAxisConfig]
  cases lineSourceOfCode (fld d 248 3) <;> cases lineSourceOfCode (fld d 252 3) <;> simp

theorem ctlReads_configureAxis (hk : headerKind d = 0x10) : CtlReads d ↔
    onlyFields d configureFields = true ∧ (fld d 248 3 ≤ 4 ∧ fld d 252 3 ≤ 4) ∧ (headerIndex d).toNat < 4 := by
  rw [← readAxisConfig_isSome_iff]
  simp only [CtlReads, readCtlBody_configureAxis hk]
  constructor
  · rintro ⟨_, ⟨honly, c, hc, hindex, rfl⟩, -⟩
    exact ⟨honly, ⟨c, hc⟩, hindex⟩
  · rintro ⟨honly, ⟨c, hc⟩, hindex⟩
    exact ⟨_, ⟨honly, c, hc, hindex, rfl⟩, rfl⟩

theorem ctlReads_configureInputs (hk : headerKind d = 0x11) : CtlReads d ↔ onlyFields d inputsFields = true ∧
    1 ≤ fld d 64 8 ∧ fld d 64 8 ≤ 7 ∧ 1 ≤ fld d 80 16 ∧ fld d 80 16 ≤ 1000 ∧ 2 ≤ fld d 72 8 ∧ fld d 72 8 ≤ 15 := by
  simp only [CtlReads, readCtlBody_configureInputs hk, and_assoc,
    exists_and_left, exists_eq_left, CtlBody.inRange, inputsOf, Bool.and_eq_true, decide_eq_true_eq]

theorem inRange_of_bareCommand {k : BitVec 5} {f : Axis → CtlBody} (h : bareCommand k = some f) (a : Axis) :
    (f a).inRange = true := by
  unfold bareCommand at h
  split at h
  next => cases h; rfl
  next =>
    split at h
    next => cases h; rfl
    next =>
      split at h
      next => cases h; rfl
      next =>
        split at h
        next => cases h; rfl
        next => simp at h

theorem ctlReads_bare {f : Axis → CtlBody} (hk : bareCommand (headerKind d) = some f) :
    CtlReads d ↔ onlyFields d indexHeader = true ∧ (headerIndex d).toNat < 4 := by
  simp only [CtlReads, readCtlBody_bare hk]
  constructor
  · rintro ⟨_, ⟨honly, hindex, rfl⟩, -⟩
    exact ⟨honly, hindex⟩
  · rintro ⟨honly, hindex⟩
    exact ⟨_, ⟨honly, hindex, rfl⟩, inRange_of_bareCommand hk _⟩

theorem ctlReads_stopAxis (hk : headerKind d = 0x14) : CtlReads d ↔ onlyFields d (stopFields d) = true ∧
    (headerIndex d).toNat < 4 ∧ (present d 6 = true → 1 ≤ fld d 64 32 ∧ fld d 64 32 ≤ 262144) := by
  simp only [CtlReads, readCtlBody_stopAxis hk, ← optIn_optField]
  constructor
  · rintro ⟨_, ⟨honly, hindex, rfl⟩, hr⟩
    exact ⟨honly, hindex, hr⟩
  · rintro ⟨honly, hindex, hr⟩
    exact ⟨_, ⟨honly, hindex, rfl⟩, hr⟩

theorem ctlReads_clearFault (hk : headerKind d = 0x16) : CtlReads d ↔
    onlyFields d (indexHeader ++ [(64, 2)]) = true ∧ (headerIndex d).toNat < 4 := by
  simp only [CtlReads, readCtlBody_clearFault hk]
  constructor
  · rintro ⟨_, ⟨honly, hindex, rfl⟩, -⟩
    exact ⟨honly, hindex⟩
  · rintro ⟨honly, hindex⟩
    exact ⟨_, ⟨honly, hindex, rfl⟩, rfl⟩

theorem ctlReads_defineGroup (hk : headerKind d = 0x17) : CtlReads d ↔ onlyFields d (defineFields d) = true ∧
    (headerIndex d).toNat < 8 ∧ 2 ≤ setSize (d.extractLsb' 64 4) ∧ (present d 2 = true → 1 ≤ fld d 80 16) := by
  have htimeout := fld_lt d 80 16
  simp only [CtlReads, readCtlBody_defineGroup hk]
  constructor
  · rintro ⟨_, ⟨honly, hindex, rfl⟩, hr⟩
    simp only [CtlBody.inRange, Bool.and_eq_true, decide_eq_true_eq, optIn_optField] at hr
    exact ⟨honly, hindex, hr.1, fun h => (hr.2 h).1⟩
  · rintro ⟨honly, hindex, hsize, hpos⟩
    refine ⟨_, ⟨honly, hindex, rfl⟩, ?_⟩
    simp only [CtlBody.inRange, Bool.and_eq_true, decide_eq_true_eq, optIn_optField]
    exact ⟨hsize, fun h => ⟨hpos h, by omega⟩⟩

theorem ctlReads_clearGroup (hk : headerKind d = 0x18) : CtlReads d ↔
    onlyFields d indexHeader = true ∧ (headerIndex d).toNat < 8 := by
  simp only [CtlReads, readCtlBody_clearGroup hk]
  constructor
  · rintro ⟨_, ⟨honly, hindex, rfl⟩, -⟩
    exact ⟨honly, hindex⟩
  · rintro ⟨honly, hindex⟩
    exact ⟨_, ⟨honly, hindex, rfl⟩, rfl⟩

theorem ctlReads_arm (hk : headerKind d = 0x19) (ha : fld d 64 8 = 0) : CtlReads d ↔ onlyFields d (armFields d) = true ∧
    fld d 72 8 ≤ 5 ∧ (headerIndex d).toNat < 4 ∧ (present d 7 = true → 1 ≤ fld d 80 8) := by
  have hcount := fld_lt d 80 8
  rw [← sourceOfCode_isSome_iff]
  simp only [CtlReads, readCtlBody_arm hk ha]
  constructor
  · rintro ⟨_, ⟨honly, src, hsrc, hindex, rfl⟩, hr⟩
    simp only [CtlBody.inRange, optIn_optField] at hr
    exact ⟨honly, ⟨src, hsrc⟩, hindex, fun h => (hr h).1⟩
  · rintro ⟨honly, ⟨src, hsrc⟩, hindex, hpos⟩
    refine ⟨_, ⟨honly, src, hsrc, hindex, rfl⟩, ?_⟩
    simp only [CtlBody.inRange, optIn_optField]
    exact fun h => ⟨hpos h, by omega⟩

theorem ctlReads_disarm (hk : headerKind d = 0x19) (ha : fld d 64 8 = 1) : CtlReads d ↔
    onlyFields d (indexHeader ++ [(64, 8)]) = true ∧ (headerIndex d).toNat < 4 := by
  simp only [CtlReads, readCtlBody_disarm hk ha]
  constructor
  · rintro ⟨_, ⟨honly, hindex, rfl⟩, -⟩
    exact ⟨honly, hindex⟩
  · rintro ⟨honly, hindex⟩
    exact ⟨_, ⟨honly, hindex, rfl⟩, rfl⟩

theorem not_ctlReads_action (hk : headerKind d = 0x19) (ha : 1 < fld d 64 8) : ¬ CtlReads d := by
  rw [CtlReads, readCtlBody_action hk ha]
  simp

theorem ctlReads_nop (hk : headerKind d = 0x1B) : CtlReads d ↔ onlyFields d plainHeader = true := by
  simp only [CtlReads, readCtlBody_nop hk]
  constructor
  · rintro ⟨_, ⟨honly, rfl⟩, -⟩
    exact honly
  · exact fun honly => ⟨_, ⟨honly, rfl⟩, rfl⟩

theorem not_ctlReads_unknown (hk : (headerKind d).toNat < 0x10 ∨ 0x1B < (headerKind d).toNat) : ¬ CtlReads d := by
  rw [CtlReads, readCtlBody_unknown hk]
  simp

end

/-! ### The gaps of a control record -/

theorem onlyFields_configure (d : Block32) : onlyFields d configureFields = true ↔
    Clear d 5 3 ∧ Clear d 8 8 ∧ Clear d 24 8 ∧ Clear d 239 1 ∧ Clear d 251 1 ∧ Clear d 255 1 := by
  rw [onlyFields_iff_gaps [(5, 3), (8, 8), (24, 8), (239, 1), (251, 1), (255, 1)] (by decide)]
  simp

theorem onlyFields_inputs (d : Block32) : onlyFields d inputsFields = true ↔
    Clear d 5 3 ∧ Clear d 8 8 ∧ Clear d 16 8 ∧ Clear d 24 8 ∧ Clear d 108 148 := by
  rw [onlyFields_iff_gaps [(5, 3), (8, 8), (16, 8), (24, 8), (108, 148)] (by decide)]
  simp

theorem onlyFields_index (d : Block32) : onlyFields d indexHeader = true ↔
    Clear d 5 3 ∧ Clear d 8 8 ∧ Clear d 24 8 ∧ Clear d 64 192 := by
  rw [onlyFields_iff_gaps [(5, 3), (8, 8), (24, 8), (64, 192)] (by decide)]
  simp

theorem onlyFields_plain (d : Block32) : onlyFields d plainHeader = true ↔
    Clear d 5 3 ∧ Clear d 8 8 ∧ Clear d 16 8 ∧ Clear d 24 8 ∧ Clear d 64 192 := by
  rw [onlyFields_iff_gaps [(5, 3), (8, 8), (16, 8), (24, 8), (64, 192)] (by decide)]
  simp

theorem onlyFields_clearFault (d : Block32) : onlyFields d (indexHeader ++ [(64, 2)]) = true ↔
    Clear d 5 3 ∧ Clear d 8 8 ∧ Clear d 24 8 ∧ Clear d 66 190 := by
  rw [onlyFields_iff_gaps [(5, 3), (8, 8), (24, 8), (66, 190)] (by decide)]
  simp

theorem onlyFields_disarm (d : Block32) : onlyFields d (indexHeader ++ [(64, 8)]) = true ↔
    Clear d 5 3 ∧ Clear d 8 8 ∧ Clear d 24 7 ∧ Clear d 31 1 ∧ Clear d 72 16 ∧ Clear d 88 168 := by
  rw [onlyFields_iff_gaps [(5, 3), (8, 8), (24, 7), (31, 1), (72, 16), (88, 168)] (by decide)]
  simp

theorem onlyFields_stop (d : Block32) : onlyFields d (stopFields d) = true ↔
    Clear d 5 3 ∧ Clear d 8 8 ∧ Clear d 24 6 ∧ Clear d 31 1 ∧ Clear d 96 160 ∧ (present d 6 = false → Clear d 64 32) := by
  have hgaps : ∀ p : Bool, maskOf (indexHeader ++ [(30, 1)] ++ whenPresent p [(64, 32)]) =
      ~~~ maskOf ([(5, 3), (8, 8), (24, 6), (31, 1), (96, 160)] ++ whenPresent (! p) [(64, 32)]) := by
    decide
  rw [stopFields, onlyFields_iff_gaps _ (hgaps _)]
  cases present d 6 <;> simp [whenPresent]

theorem onlyFields_define (d : Block32) : onlyFields d (defineFields d) = true ↔
    Clear d 5 3 ∧ Clear d 8 8 ∧ Clear d 24 2 ∧ Clear d 27 5 ∧ Clear d 68 4 ∧ Clear d 73 7 ∧ Clear d 96 160 ∧
      (present d 2 = false → Clear d 80 16) := by
  have hgaps : ∀ p : Bool, maskOf (indexHeader ++ [(26, 1), (64, 4), (72, 1)] ++ whenPresent p [(80, 16)]) =
      ~~~ maskOf ([(5, 3), (8, 8), (24, 2), (27, 5), (68, 4), (73, 7), (96, 160)] ++ whenPresent (! p) [(80, 16)]) := by
    decide
  rw [defineFields, onlyFields_iff_gaps _ (hgaps _)]
  cases present d 2 <;> simp [whenPresent]

theorem onlyFields_arm (d : Block32) : onlyFields d (armFields d) = true ↔
    Clear d 5 3 ∧ Clear d 8 8 ∧ Clear d 24 7 ∧ Clear d 88 168 ∧ (present d 7 = false → Clear d 80 8) := by
  have hgaps : ∀ p : Bool, maskOf (indexHeader ++ [(31, 1), (64, 8), (72, 8)] ++ whenPresent p [(80, 8)]) =
      ~~~ maskOf ([(5, 3), (8, 8), (24, 7), (88, 168)] ++ whenPresent (! p) [(80, 8)]) := by
    decide
  rw [armFields, onlyFields_iff_gaps _ (hgaps _)]
  cases present d 7 <;> simp [whenPresent]

/-- A member set names two axes or more exactly where two of its bits are set. -/
theorem two_le_setSize_iff (m : AxisSet) :
    2 ≤ setSize m ↔ ∃ j < 4, ∃ i < j, m.getLsbD i = true ∧ m.getLsbD j = true := by
  revert m
  decide

theorem clear_one_iff (d : Block32) (i : Nat) : Clear d i 1 ↔ d.getLsbD i = false := by
  rw [clear_iff_bits]
  exact ⟨fun h => h i le_rfl (by omega), fun h j hlo hhi => by rwa [show j = i by omega]⟩

end Sys2Proof.Machine
end

section
/-! PROOFS. O28: the tables of Chapter 12 say exactly which records read. -/

namespace Sys2Proof.Machine
open Sys2Proof

/-! ### Axis records: what fails, kind by kind -/

/-- A MOVE fails a reserved bit, a code or a range (Tables 12-2, 12-5 and 8-2). -/
def MoveFails (d : Block32) : Prop :=
  ¬ Clear d 26 6 ∨ ¬ Clear d 88 8 ∨ ¬ Clear d 184 72 ∨ (¬ present d 0 = true ∧ ¬ Clear d 96 32) ∨
    (¬ present d 1 = true ∧ ¬ Clear d 176 8) ∨ fld d 64 24 = 0 ∨ (present d 0 = true ∧ 262144 < fld d 96 32) ∨
    (word d 128).toInt < -65536 ∨ 65536 < (word d 128).toInt ∨ 1 < fld d 160 8 ∨ 1 < fld d 168 8 ∨
    (present d 1 = true ∧ 7 < fld d 176 8)

def DwellFails (d : Block32) : Prop :=
  ¬ Clear d 24 1 ∨ ¬ Clear d 26 6 ∨ ¬ Clear d 88 8 ∨ ¬ Clear d 104 152 ∨ (¬ present d 1 = true ∧ ¬ Clear d 96 8) ∨
    fld d 64 24 = 0 ∨ (present d 1 = true ∧ 7 < fld d 96 8)

def WaitFails (d : Block32) : Prop :=
  ¬ Clear d 24 2 ∨ ¬ Clear d 28 4 ∨ ¬ Clear d 80 16 ∨ ¬ Clear d 120 8 ∨ ¬ Clear d 160 96 ∨
    (¬ present d 2 = true ∧ ¬ Clear d 96 24) ∨ (¬ present d 3 = true ∧ ¬ Clear d 128 32) ∨ 5 < fld d 64 8 ∨
    1 < fld d 72 8 ∨ (present d 2 = true ∧ fld d 96 24 = 0)

def SetposFails (d : Block32) : Prop :=
  ¬ Clear d 24 4 ∨ ¬ Clear d 30 2 ∨ ¬ Clear d 128 128 ∨ (¬ present d 4 = true ∧ ¬ Clear d 64 32) ∨
    (¬ present d 5 = true ∧ ¬ Clear d 96 32) ∨ (¬ present d 4 = true ∧ ¬ present d 5 = true)

/-- An axis record fails its header, its kind or a check of its kind. -/
def AxisFails (d : Block32) : Prop :=
  ¬ Clear d 5 3 ∨ ¬ Clear d 9 15 ∨ headerKind d = 0 ∨ 5 < (headerKind d).toNat ∨ (headerKind d = 1 ∧ MoveFails d) ∨
    (headerKind d = 2 ∧ DwellFails d) ∨ (headerKind d = 3 ∧ WaitFails d) ∨ (headerKind d = 4 ∧ SetposFails d) ∨
    (headerKind d = 5 ∧ (¬ Clear d 24 8 ∨ ¬ Clear d 64 192))

section
variable {d : Block32}

/-- A group byte is below 8 also where it is absent, since it is then 0. -/
theorem group_byte_lt {i lo : Nat} (habsent : present d i = false → Clear d lo 8)
    (h : present d i = true → ¬ 7 < fld d lo 8) : fld d lo 8 < 8 := by
  cases hp : present d i with
  | true => exact Nat.lt_succ_of_le (Nat.le_of_not_lt (h hp))
  | false => rw [fld_eq_zero_of_clear (habsent hp)]; decide

theorem axisReads_move_iff_not_fails (hk : headerKind d = 1) :
    AxisReads d ↔ Clear d 5 3 ∧ Clear d 9 15 ∧ ¬ MoveFails d := by
  simp only [axisReads_move hk, onlyFields_move, MoveFails, not_or, not_and, not_not, Bool.not_eq_true, not_lt]
  constructor
  · rintro ⟨⟨h5, h9, h26, h88, h184, habs0, habs1⟩, hdir, hex, hgroup, hpos, hrate, hlo, hhi⟩
    exact ⟨h5, h9, h26, h88, h184, habs0, habs1, by omega, hrate, hlo, hhi, hdir, hex, fun _ => by omega⟩
  · rintro ⟨h5, h9, h26, h88, h184, habs0, habs1, hpos, hrate, hlo, hhi, hdir, hex, hgroup⟩
    exact ⟨⟨h5, h9, h26, h88, h184, habs0, habs1⟩, hdir, hex,
      group_byte_lt habs1 fun h => Nat.not_lt.mpr (hgroup h), by omega, hrate, hlo, hhi⟩

theorem axisReads_dwell_iff_not_fails (hk : headerKind d = 2) :
    AxisReads d ↔ Clear d 5 3 ∧ Clear d 9 15 ∧ ¬ DwellFails d := by
  simp only [axisReads_dwell hk, onlyFields_dwell, DwellFails, not_or, not_and, not_not, Bool.not_eq_true, not_lt]
  constructor
  · rintro ⟨⟨h5, h9, h24, h26, h88, h104, habs⟩, hgroup, hpos⟩
    exact ⟨h5, h9, h24, h26, h88, h104, habs, by omega, fun _ => by omega⟩
  · rintro ⟨h5, h9, h24, h26, h88, h104, habs, hpos, hgroup⟩
    exact ⟨⟨h5, h9, h24, h26, h88, h104, habs⟩, group_byte_lt habs fun h => Nat.not_lt.mpr (hgroup h), by omega⟩

theorem axisReads_wait_iff_not_fails (hk : headerKind d = 3) :
    AxisReads d ↔ Clear d 5 3 ∧ Clear d 9 15 ∧ ¬ WaitFails d := by
  simp only [axisReads_wait hk, onlyFields_wait, WaitFails, not_or, not_and, not_not, Bool.not_eq_true, not_lt]
  constructor
  · rintro ⟨⟨h5, h9, h24, h28, h80, h120, h160, habs2, habs3⟩, hsrc, hpol, hpos⟩
    exact ⟨h5, h9, h24, h28, h80, h120, h160, habs2, habs3, hsrc, hpol, fun h => Nat.one_le_iff_ne_zero.mp (hpos h)⟩
  · rintro ⟨h5, h9, h24, h28, h80, h120, h160, habs2, habs3, hsrc, hpol, hpos⟩
    exact ⟨⟨h5, h9, h24, h28, h80, h120, h160, habs2, habs3⟩, hsrc, hpol, fun h => Nat.one_le_iff_ne_zero.mpr (hpos h)⟩

theorem axisReads_setpos_iff_not_fails (hk : headerKind d = 4) :
    AxisReads d ↔ Clear d 5 3 ∧ Clear d 9 15 ∧ ¬ SetposFails d := by
  have hone : present d 4 = true ∨ present d 5 = true ↔ ¬ (¬ present d 4 = true ∧ ¬ present d 5 = true) := by
    rw [not_and_not_right, or_iff_not_imp_left]
  simp only [axisReads_setpos hk, onlyFields_setpos, SetposFails, hone, not_or, and_assoc, not_not]
  simp only [not_and, not_not, Bool.not_eq_true]

theorem axisReads_mark_iff_not_fails (hk : headerKind d = 5) :
    AxisReads d ↔ Clear d 5 3 ∧ Clear d 9 15 ∧ ¬ (¬ Clear d 24 8 ∨ ¬ Clear d 64 192) := by
  simp only [axisReads_mark hk, onlyFields_mark, not_or, not_not]

end

/-- An axis record reads exactly where no check of its kind fails. -/
theorem axisReads_iff_not_fails (d : Block32) : AxisReads d ↔ ¬ AxisFails d := by
  by_cases hunknown : headerKind d = 0 ∨ 5 < (headerKind d).toNat
  · refine iff_of_false (not_axisReads_unknown hunknown) (not_not.mpr ?_)
    exact .inr (.inr (hunknown.elim .inl fun h => .inr (.inl h)))
  · have hkinds : headerKind d = 1 ∨ headerKind d = 2 ∨ headerKind d = 3 ∨ headerKind d = 4 ∨ headerKind d = 5 := by
      revert hunknown
      generalize headerKind d = k
      revert k
      decide
    unfold AxisFails
    obtain hk | hk | hk | hk | hk := hkinds
    · rw [axisReads_move_iff_not_fails hk, hk]; simp
    · rw [axisReads_dwell_iff_not_fails hk, hk]; simp
    · rw [axisReads_wait_iff_not_fails hk, hk]; simp
    · rw [axisReads_setpos_iff_not_fails hk, hk]; simp
    · rw [axisReads_mark_iff_not_fails hk, hk]; simp

/-! ### Control records: what fails, kind by kind -/

def ConfigureFails (d : Block32) : Prop :=
  3 < fld d 16 8 ∨ ¬ Clear d 24 8 ∨ ¬ Clear d 239 1 ∨ ¬ Clear d 251 1 ∨ ¬ Clear d 255 1 ∨ 4 < fld d 248 3 ∨ 4 < fld d 252 3

def InputsFail (d : Block32) : Prop :=
  ¬ Clear d 16 8 ∨ ¬ Clear d 24 8 ∨ ¬ Clear d 108 148 ∨ fld d 64 8 < 1 ∨ 7 < fld d 64 8 ∨ fld d 72 8 < 2 ∨ 15 < fld d 72 8 ∨
    fld d 80 16 < 1 ∨ 1000 < fld d 80 16

def StopFails (d : Block32) : Prop :=
  3 < fld d 16 8 ∨ ¬ Clear d 24 6 ∨ ¬ Clear d 31 1 ∨ ¬ Clear d 96 160 ∨ (¬ present d 6 = true ∧ ¬ Clear d 64 32) ∨
    (present d 6 = true ∧ (fld d 64 32 < 1 ∨ 262144 < fld d 64 32))

def DefineFails (d : Block32) : Prop :=
  7 < fld d 16 8 ∨ ¬ Clear d 24 2 ∨ ¬ Clear d 27 5 ∨ ¬ Clear d 68 4 ∨ ¬ Clear d 73 7 ∨ ¬ Clear d 96 160 ∨
    (¬ present d 2 = true ∧ ¬ Clear d 80 16) ∨ (present d 2 = true ∧ fld d 80 16 = 0) ∨
    ∀ i j, i < j → j < 4 → ¬ (d.getLsbD (64 + i) = true ∧ d.getLsbD (64 + j) = true)

def CaptureFails (d : Block32) : Prop :=
  3 < fld d 16 8 ∨ ¬ Clear d 24 7 ∨ ¬ Clear d 88 168 ∨ 1 < fld d 64 8 ∨
    (fld d 64 8 = 1 ∧ (present d 7 = true ∨ ¬ Clear d 72 16)) ∨
    (fld d 64 8 = 0 ∧ (5 < fld d 72 8 ∨ (¬ present d 7 = true ∧ ¬ Clear d 80 8) ∨ (present d 7 = true ∧ fld d 80 8 = 0)))

/-- A record without body fields has one set. -/
def BareFails (d : Block32) : Prop := ¬ Clear d 24 8 ∨ ¬ Clear d 64 192

/-- A control record fails its header, its kind or a check of its kind. -/
def CtlFails (d : Block32) : Prop :=
  ¬ Clear d 5 3 ∨ ¬ Clear d 8 8 ∨ (headerKind d).toNat < 0x10 ∨ 0x1B < (headerKind d).toNat ∨
    (headerKind d = 0x10 ∧ ConfigureFails d) ∨ (headerKind d = 0x11 ∧ InputsFail d) ∨
    ((headerKind d = 0x12 ∨ headerKind d = 0x13 ∨ headerKind d = 0x15 ∨ headerKind d = 0x1A) ∧ (3 < fld d 16 8 ∨ BareFails d)) ∨
    (headerKind d = 0x14 ∧ StopFails d) ∨ (headerKind d = 0x16 ∧ (3 < fld d 16 8 ∨ ¬ Clear d 24 8 ∨ ¬ Clear d 66 190)) ∨
    (headerKind d = 0x17 ∧ DefineFails d) ∨ (headerKind d = 0x18 ∧ (7 < fld d 16 8 ∨ BareFails d)) ∨
    (headerKind d = 0x19 ∧ CaptureFails d) ∨ (headerKind d = 0x1B ∧ (¬ Clear d 16 8 ∨ BareFails d))

section
variable {d : Block32}

theorem headerIndex_lt_succ_iff (n : Nat) : (headerIndex d).toNat < n + 1 ↔ ¬ n < fld d 16 8 := by
  rw [Nat.lt_succ_iff, Nat.not_lt]
  rfl

theorem headerIndex_lt_four : (headerIndex d).toNat < 4 ↔ ¬ 3 < fld d 16 8 := headerIndex_lt_succ_iff 3

theorem headerIndex_lt_eight : (headerIndex d).toNat < 8 ↔ ¬ 7 < fld d 16 8 := headerIndex_lt_succ_iff 7

theorem ctlReads_configure_iff_not_fails (hk : headerKind d = 0x10) :
    CtlReads d ↔ Clear d 5 3 ∧ Clear d 8 8 ∧ ¬ ConfigureFails d := by
  simp only [ctlReads_configureAxis hk, onlyFields_configure, headerIndex_lt_four, ConfigureFails, not_or, not_not, not_lt]
  constructor
  · rintro ⟨⟨h5, h8, h24, h239, h251, h255⟩, ⟨hindex, hhome⟩, haxis⟩
    exact ⟨h5, h8, haxis, h24, h239, h251, h255, hindex, hhome⟩
  · rintro ⟨h5, h8, haxis, h24, h239, h251, h255, hindex, hhome⟩
    exact ⟨⟨h5, h8, h24, h239, h251, h255⟩, ⟨hindex, hhome⟩, haxis⟩

theorem ctlReads_inputs_iff_not_fail (hk : headerKind d = 0x11) :
    CtlReads d ↔ Clear d 5 3 ∧ Clear d 8 8 ∧ ¬ InputsFail d := by
  simp only [ctlReads_configureInputs hk, onlyFields_inputs, InputsFail, not_or, not_not, not_lt]
  constructor
  · rintro ⟨⟨h5, h8, h16, h24, h108⟩, hfast, hfast', hint, hint', hslow, hslow'⟩
    exact ⟨h5, h8, h16, h24, h108, hfast, hfast', hslow, hslow', hint, hint'⟩
  · rintro ⟨h5, h8, h16, h24, h108, hfast, hfast', hslow, hslow', hint, hint'⟩
    exact ⟨⟨h5, h8, h16, h24, h108⟩, hfast, hfast', hint, hint', hslow, hslow'⟩

theorem ctlReads_bare_iff_not_fails {f : Axis → CtlBody} (hk : bareCommand (headerKind d) = some f) :
    CtlReads d ↔ Clear d 5 3 ∧ Clear d 8 8 ∧ ¬ (3 < fld d 16 8 ∨ BareFails d) := by
  simp only [ctlReads_bare hk, onlyFields_index, headerIndex_lt_four, BareFails, not_or, not_not]
  tauto

theorem ctlReads_stop_iff_not_fails (hk : headerKind d = 0x14) :
    CtlReads d ↔ Clear d 5 3 ∧ Clear d 8 8 ∧ ¬ StopFails d := by
  simp only [ctlReads_stopAxis hk, onlyFields_stop, headerIndex_lt_four, StopFails, not_or, not_and, not_not, not_lt,
    Bool.not_eq_true]
  constructor
  · rintro ⟨⟨h5, h8, h24, h31, h96, habs⟩, haxis, hrate⟩
    exact ⟨h5, h8, haxis, h24, h31, h96, habs, hrate⟩
  · rintro ⟨h5, h8, haxis, h24, h31, h96, habs, hrate⟩
    exact ⟨⟨h5, h8, h24, h31, h96, habs⟩, haxis, hrate⟩

theorem ctlReads_clearFault_iff_not_fails (hk : headerKind d = 0x16) :
    CtlReads d ↔ Clear d 5 3 ∧ Clear d 8 8 ∧ ¬ (3 < fld d 16 8 ∨ ¬ Clear d 24 8 ∨ ¬ Clear d 66 190) := by
  simp only [ctlReads_clearFault hk, onlyFields_clearFault, headerIndex_lt_four, not_or, not_not]
  tauto

/-- The member set read from byte 8 has fewer than two members where no two of its bits are set. -/
theorem not_two_le_members_iff : ¬ 2 ≤ setSize (d.extractLsb' 64 4) ↔
    ∀ i j, i < j → j < 4 → ¬ (d.getLsbD (64 + i) = true ∧ d.getLsbD (64 + j) = true) := by
  have hbit : ∀ i < 4, (d.extractLsb' 64 4).getLsbD i = d.getLsbD (64 + i) := fun i hi => by simp [hi]
  rw [two_le_setSize_iff]
  constructor
  · rintro h i j hij hj ⟨hi', hj'⟩
    exact h ⟨j, hj, i, hij, by rwa [hbit i (by omega)], by rwa [hbit j hj]⟩
  · rintro h ⟨j, hj, i, hij, hi', hj'⟩
    rw [hbit i (by omega)] at hi'
    rw [hbit j hj] at hj'
    exact h i j hij hj ⟨hi', hj'⟩

theorem ctlReads_define_iff_not_fails (hk : headerKind d = 0x17) :
    CtlReads d ↔ Clear d 5 3 ∧ Clear d 8 8 ∧ ¬ DefineFails d := by
  simp only [ctlReads_defineGroup hk, onlyFields_define, headerIndex_lt_eight, DefineFails, ← not_two_le_members_iff, not_or, not_not]
  simp only [not_and, not_not, Bool.not_eq_true, Nat.one_le_iff_ne_zero]
  constructor
  · rintro ⟨⟨h5, h8, h24, h27, h68, h73, h96, habs⟩, hindex, hsize, hpos⟩
    exact ⟨h5, h8, hindex, h24, h27, h68, h73, h96, habs, hpos, hsize⟩
  · rintro ⟨h5, h8, hindex, h24, h27, h68, h73, h96, habs, hpos, hsize⟩
    exact ⟨⟨h5, h8, h24, h27, h68, h73, h96, habs⟩, hindex, hsize, hpos⟩

theorem ctlReads_clearGroup_iff_not_fails (hk : headerKind d = 0x18) :
    CtlReads d ↔ Clear d 5 3 ∧ Clear d 8 8 ∧ ¬ (7 < fld d 16 8 ∨ BareFails d) := by
  simp only [ctlReads_clearGroup hk, onlyFields_index, headerIndex_lt_eight, BareFails, not_or, not_not]
  tauto

theorem ctlReads_capture_iff_not_fails (hk : headerKind d = 0x19) :
    CtlReads d ↔ Clear d 5 3 ∧ Clear d 8 8 ∧ ¬ CaptureFails d := by
  obtain ha | ha | ha : fld d 64 8 = 0 ∨ fld d 64 8 = 1 ∨ 1 < fld d 64 8 := by omega
  · simp only [ctlReads_arm hk ha, onlyFields_arm, headerIndex_lt_four, CaptureFails, ha, not_or, not_and, not_not,
      Bool.not_eq_true, Nat.one_le_iff_ne_zero]
    simp
    tauto
  · have hflag : present d 7 = false ↔ Clear d 31 1 := (clear_one_iff d 31).symm
    simp only [ctlReads_disarm hk ha, onlyFields_disarm, headerIndex_lt_four, CaptureFails, ha, not_or, not_and, not_not,
      Bool.not_eq_true, ← hflag]
    simp
    tauto
  · exact iff_of_false (not_ctlReads_action hk ha) fun h => h.2.2 (by simp [CaptureFails, ha])

theorem ctlReads_nop_iff_not_fails (hk : headerKind d = 0x1B) :
    CtlReads d ↔ Clear d 5 3 ∧ Clear d 8 8 ∧ ¬ (¬ Clear d 16 8 ∨ BareFails d) := by
  simp only [ctlReads_nop hk, onlyFields_plain, BareFails, not_or, not_not]

end

/-- A control record reads exactly where no check of its kind fails. -/
theorem ctlReads_iff_not_fails (d : Block32) : CtlReads d ↔ ¬ CtlFails d := by
  by_cases hunknown : (headerKind d).toNat < 0x10 ∨ 0x1B < (headerKind d).toNat
  · refine iff_of_false (not_ctlReads_unknown hunknown) (not_not.mpr ?_)
    exact .inr (.inr (hunknown.elim .inl fun h => .inr (.inl h)))
  · have hkinds : headerKind d = 0x10 ∨ headerKind d = 0x11 ∨ headerKind d = 0x12 ∨ headerKind d = 0x13 ∨
        headerKind d = 0x14 ∨ headerKind d = 0x15 ∨ headerKind d = 0x16 ∨ headerKind d = 0x17 ∨
        headerKind d = 0x18 ∨ headerKind d = 0x19 ∨ headerKind d = 0x1A ∨ headerKind d = 0x1B := by
      revert hunknown
      generalize headerKind d = k
      revert k
      decide
    unfold CtlFails
    obtain hk | hk | hk | hk | hk | hk | hk | hk | hk | hk | hk | hk := hkinds
    · rw [ctlReads_configure_iff_not_fails hk, hk]; simp
    · rw [ctlReads_inputs_iff_not_fail hk, hk]; simp
    · rw [ctlReads_bare_iff_not_fails (by rw [hk]; rfl), hk]; simp
    · rw [ctlReads_bare_iff_not_fails (by rw [hk]; rfl), hk]; simp
    · rw [ctlReads_stop_iff_not_fails hk, hk]; simp
    · rw [ctlReads_bare_iff_not_fails (by rw [hk]; rfl), hk]; simp
    · rw [ctlReads_clearFault_iff_not_fails hk, hk]; simp
    · rw [ctlReads_define_iff_not_fails hk, hk]; simp
    · rw [ctlReads_clearGroup_iff_not_fails hk, hk]; simp
    · rw [ctlReads_capture_iff_not_fails hk, hk]; simp
    · rw [ctlReads_bare_iff_not_fails (by rw [hk]; rfl), hk]; simp
    · rw [ctlReads_nop_iff_not_fails hk, hk]; simp

/-- Settles O28. -/
theorem badRecordsAreMarkedInvalid : Obligations.BadRecordsAreMarkedInvalid := by
  intro d
  change (AxisFails d → readAxisRecord d = { tag := headerTag d, report := headerReport d, body := .invalid (headerKind d) }) ∧
    (¬ AxisFails d → ∀ k, (readAxisRecord d).body ≠ .invalid k) ∧
    (CtlFails d → readCtlRecord d = { tag := headerTag d, body := .invalid (headerKind d) (headerIndex d) }) ∧
    (¬ CtlFails d → ∀ k n, (readCtlRecord d).body ≠ .invalid k n)
  rw [← axisReads_iff_not_fails, ← ctlReads_iff_not_fails]
  exact ⟨fun h => readAxisRecord_of_not fun hr => (axisReads_iff_not_fails d).mp hr h, readAxisRecord_valid,
    fun h => readCtlRecord_of_not fun hr => (ctlReads_iff_not_fails d).mp hr h, readCtlRecord_valid⟩

end Sys2Proof.Machine
end

section
/-! PROOFS. O29 and O30: what is laid out in the 32 bytes of a record is what is read. -/

namespace Sys2Proof.Machine
open Sys2Proof

/-! ### Blocks laid out from parts -/

/-- A field with its place and its value. -/
structure Part where
  lo : Nat
  width : Nat
  val : BitVec width

def Part.bits (f : Part) : Block32 := f.val.setWidth 256 <<< f.lo

/-- The block that holds every part at its place. -/
def blockOf (l : List Part) : Block32 := l.foldl (fun d f => d ||| f.bits) 0#256

def rangesOf (l : List Part) : List (Nat × Nat) := l.map fun f => (f.lo, f.width)

/-- Two ranges have no bit in common. -/
def apart (p q : Nat × Nat) : Bool := p.1 + p.2 ≤ q.1 || q.1 + q.2 ≤ p.1

/-- The ranges lie within the block and apart from one another. -/
def wellLaid (rs : List (Nat × Nat)) : Bool :=
  rs.all (fun p => p.1 + p.2 ≤ 256) && decide (rs.Pairwise fun p q => apart p q = true)

theorem Part.bits_bit (f : Part) {i : Nat} (hi : i < 256) :
    f.bits.getLsbD i = (decide (f.lo ≤ i) && f.val.getLsbD (i - f.lo)) := by
  have hsub : i - f.lo < 256 := by omega
  rw [Part.bits, BitVec.getLsbD_shiftLeft, BitVec.getLsbD_setWidth]
  by_cases hlo : f.lo ≤ i <;> simp [hi, hsub, hlo, Nat.lt_of_not_le, Nat.not_lt.mpr]

/-- A part has no bit outside its range. -/
theorem Part.bits_outside (f : Part) {i : Nat} (hi : i < 256) (h : i < f.lo ∨ f.lo + f.width ≤ i) : f.bits.getLsbD i = false := by
  rw [f.bits_bit hi]
  obtain hlo | hhi := h
  · simp [Nat.not_le.mpr hlo]
  · rw [BitVec.getLsbD_of_ge _ _ (by omega), Bool.and_false]

theorem blockOf_bit (l : List Part) (i : Nat) : (blockOf l).getLsbD i = l.any fun f => f.bits.getLsbD i := by
  have hfold : ∀ (l : List Part) (d : Block32),
      (l.foldl (fun d f => d ||| f.bits) d).getLsbD i = (d.getLsbD i || l.any fun f => f.bits.getLsbD i) := by
    intro l
    induction l with
    | nil => simp
    | cons f l ih => exact fun d => by rw [List.foldl_cons, ih, BitVec.getLsbD_or, List.any_cons, Bool.or_assoc]
  rw [blockOf, hfold]
  simp

section
variable {l : List Part} {k lo n : Nat}

/-- A part stands in the block as it was laid out. -/
theorem field_blockOf (hl : wellLaid (rangesOf l) = true) {v : BitVec n} (hk : l[k]? = some ⟨lo, n, v⟩) :
    (blockOf l).extractLsb' lo n = v := by
  have hmem : (⟨lo, n, v⟩ : Part) ∈ l := List.mem_of_getElem? hk
  rw [wellLaid, Bool.and_eq_true, List.all_eq_true, decide_eq_true_eq, rangesOf, List.pairwise_map] at hl
  obtain ⟨hfit, hpair⟩ := hl
  have hend : lo + n ≤ 256 := of_decide_eq_true (hfit (lo, n) (List.mem_map_of_mem (f := fun f : Part => (f.lo, f.width)) hmem))
  refine BitVec.eq_of_getLsbD_eq fun i hi => ?_
  have hown : (⟨lo, n, v⟩ : Part).bits.getLsbD (lo + i) = v.getLsbD i := by
    rw [Part.bits_bit _ (by omega)]
    simp
  have hother : ∀ g ∈ l, g ≠ ⟨lo, n, v⟩ → g.bits.getLsbD (lo + i) = false := by
    intro g hg hne
    have : Std.Symm fun p q : Part => apart (p.lo, p.width) (q.lo, q.width) = true :=
      ⟨fun p q h => by simpa [apart, or_comm] using h⟩
    have hapart := hpair.forall hg hmem hne
    simp only [apart, Bool.or_eq_true, decide_eq_true_eq] at hapart
    exact g.bits_outside (by omega) (by omega)
  rw [BitVec.getLsbD_extractLsb', blockOf_bit, ← hown]
  simp only [hi, decide_true, Bool.true_and]
  cases hv : (⟨lo, n, v⟩ : Part).bits.getLsbD (lo + i) with
  | true => exact List.any_eq_true.mpr ⟨_, hmem, hv⟩
  | false =>
    refine List.any_eq_false.mpr fun g hg => Bool.eq_false_iff.mp ?_
    by_cases hgf : g = ⟨lo, n, v⟩
    · rw [hgf, hv]
    · exact hother g hg hgf

theorem fld_blockOf (hl : wellLaid (rangesOf l) = true) {v : BitVec n} (hk : l[k]? = some ⟨lo, n, v⟩) :
    fld (blockOf l) lo n = v.toNat := congrArg BitVec.toNat (field_blockOf hl hk)

theorem bit_blockOf (hl : wellLaid (rangesOf l) = true) {b : Bool} (hk : l[k]? = some ⟨lo, 1, .ofBool b⟩) :
    (blockOf l).getLsbD lo = b := by
  have hbit := congrArg (fun v => v.getLsbD 0) (field_blockOf hl hk)
  simpa using hbit

/-- A range that no part touches is 0. -/
theorem clear_blockOf (h : ((rangesOf l).all fun p => apart p (lo, n)) = true) (hend : lo + n ≤ 256) :
    Clear (blockOf l) lo n := by
  refine (clear_iff_bits ..).mpr fun i hlo hhi => ?_
  rw [blockOf_bit]
  refine List.any_eq_false.mpr fun g hg => Bool.eq_false_iff.mp ?_
  have hapart := List.all_eq_true.mp h _ (List.mem_map_of_mem (f := fun f : Part => (f.lo, f.width)) hg)
  simp only [apart, Bool.or_eq_true, decide_eq_true_eq] at hapart
  exact g.bits_outside (by omega) (by omega)

end

/-! ### The wording of the statements, as parts -/

theorem flag_shift (b : Bool) (i n : Nat) :
    ((BitVec.ofBool b).setWidth 256 : Block32) <<< i <<< n = Part.bits ⟨i + n, 1, .ofBool b⟩ :=
  (BitVec.shiftLeft_add ..).symm

theorem ofNat_eq_setWidth {w v : Nat} (hw : w ≤ 256) (hv : v < 2 ^ w) :
    BitVec.ofNat 256 v = (BitVec.ofNat w v).setWidth 256 := by
  refine BitVec.eq_of_toNat_eq ?_
  have h256 : v < 2 ^ 256 := hv.trans_le (Nat.pow_le_pow_right (by decide) hw)
  rw [BitVec.toNat_setWidth, BitVec.toNat_ofNat, BitVec.toNat_ofNat, Nat.mod_eq_of_lt hv]

theorem optField_getD {α β : Type} (o : Option α) (z : α) (f : α → β) : optField o.isSome (f (o.getD z)) = o.map f := by
  cases o <;> rfl

theorem optField_getD_self {α : Type} (o : Option α) (z : α) : optField o.isSome (o.getD z) = o := by
  cases o <;> rfl

/-! ### Axis records -/

section
variable (tag : Word) (report : Bool)

/-- The parts of an axis record's header, and those of its kind. -/
def axisParts (kind : BitVec 5) (body : List Part) : List Part :=
  ⟨0, 5, kind⟩ :: ⟨8, 1, .ofBool report⟩ :: ⟨32, 32, tag⟩ :: body

theorem readAxisRecord_of_layout {kind : BitVec 5} {body : List Part} {b : AxisBody}
    (hl : wellLaid (rangesOf (axisParts tag report kind body)) = true)
    (hread : readAxisBody (blockOf (axisParts tag report kind body)) = some b) (hr : b.inRange = true) :
    readAxisRecord (blockOf (axisParts tag report kind body)) = { tag := tag, report := report, body := b } := by
  rw [readAxisRecord_of_reads hread hr]
  congr 1
  · exact field_blockOf hl (k := 2) rfl
  · exact bit_blockOf hl (k := 1) rfl

/-- A byte of an optional group, 0 where there is none. -/
def groupByte (group : Option (Fin 8)) : BitVec 8 := .ofNat 8 ((group.map Fin.val).getD 0)

theorem groupByte_toNat (group : Option (Fin 8)) : (groupByte group).toNat = ((group.map Fin.val).getD 0) := by
  cases group with
  | none => rfl
  | some g => exact Nat.mod_eq_of_lt (by simp; omega)

theorem groupByte_lt (group : Option (Fin 8)) : (groupByte group).toNat < 8 := by
  rw [groupByte_toNat]
  cases group with
  | none => decide
  | some g => exact g.isLt

theorem optField_groupByte {n : Nat} (group : Option (Fin 8)) (h : n < 8) (hn : n = (groupByte group).toNat) :
    optField group.isSome (⟨n, h⟩ : Fin 8) = group := by
  subst hn
  cases group with
  | none => rfl
  | some g => exact congrArg some (Fin.ext (groupByte_toNat (some g)))

/-- A field whose flag says it is absent holds 0. -/
theorem clear_of_absent {l : List Part} {k lo n i : Nat} {α : Type} {o : Option α} {v : BitVec n}
    (hl : wellLaid (rangesOf l) = true) (hk : l[k]? = some ⟨lo, n, v⟩) (hflag : present (blockOf l) i = o.isSome)
    (hv : o = none → v = 0) : present (blockOf l) i = false → Clear (blockOf l) lo n := by
  intro habs
  rw [hflag, Option.isSome_eq_false_iff, Option.isNone_iff_eq_none] at habs
  exact (field_blockOf hl hk).trans (hv habs)

def moveParts (steps : BitVec 24) (rate : Option (BitVec 32)) (delta : Word) (reverse cont : Bool)
    (group : Option (Fin 8)) : List Part :=
  [⟨24, 1, .ofBool rate.isSome⟩, ⟨25, 1, .ofBool group.isSome⟩, ⟨64, 24, steps⟩, ⟨96, 32, rate.getD 0⟩, ⟨128, 32, delta⟩,
    ⟨160, 8, (BitVec.ofBool reverse).setWidth 8⟩, ⟨168, 8, (BitVec.ofBool cont).setWidth 8⟩, ⟨176, 8, groupByte group⟩]

theorem readAxisRecord_move (steps : BitVec 24) (rate : Option (BitVec 32)) (delta : Word) (reverse cont : Bool)
    (group : Option (Fin 8)) {b : AxisBody} (hb : b = .move {
      dir := if reverse then .reverse else .forward, steps := steps.toNat, startRate := rate.map BitVec.toNat
      delta := delta.toInt, exit := if cont then .continue else .rest, sync := group }) (hr : b.inRange = true) :
    readAxisRecord (blockOf (axisParts tag report 1 (moveParts steps rate delta reverse cont group))) =
      { tag := tag, report := report, body := b } := by
  have hl : wellLaid (rangesOf (axisParts tag report 1 (moveParts steps rate delta reverse cont group))) = true := rfl
  refine readAxisRecord_of_layout tag report hl ((readAxisBody_move_iff (field_blockOf hl (k := 0) rfl)).mpr ?_) hr
  have hrate : present (blockOf (axisParts tag report 1 (moveParts steps rate delta reverse cont group))) 0 = rate.isSome :=
    bit_blockOf hl (k := 3) rfl
  have hgroup : present (blockOf (axisParts tag report 1 (moveParts steps rate delta reverse cont group))) 1 = group.isSome :=
    bit_blockOf hl (k := 4) rfl
  have hbyte := fld_blockOf hl (k := 10) rfl
  refine ⟨(onlyFields_move _).mpr ⟨clear_blockOf rfl (by decide), clear_blockOf rfl (by decide), clear_blockOf rfl (by decide),
      clear_blockOf rfl (by decide), clear_blockOf rfl (by decide), clear_of_absent hl (k := 6) rfl hrate ?_,
      clear_of_absent hl (k := 10) rfl hgroup ?_⟩,
    if reverse then .reverse else .forward, if cont then .continue else .rest,
    hbyte.trans_lt (groupByte_lt group), ?_, ?_, ?_⟩
  · rintro rfl; rfl
  · rintro rfl; rfl
  · rw [fld_blockOf hl (k := 8) rfl]
    cases reverse <;> rfl
  · rw [fld_blockOf hl (k := 9) rfl]
    cases cont <;> rfl
  · have hsteps := fld_blockOf hl (k := 5) rfl
    have hstart := fld_blockOf hl (k := 6) rfl
    have hdelta := field_blockOf hl (k := 7) rfl
    rw [hb, hsteps, hstart, word, hdelta, hrate, hgroup, optField_groupByte group _ hbyte,
      optField_getD rate 0 BitVec.toNat]

def dwellParts (n : BitVec 24) (group : Option (Fin 8)) : List Part :=
  [⟨25, 1, .ofBool group.isSome⟩, ⟨64, 24, n⟩, ⟨96, 8, groupByte group⟩]

theorem readAxisRecord_dwell (n : BitVec 24) (group : Option (Fin 8)) (hn : n ≠ 0) :
    readAxisRecord (blockOf (axisParts tag report 2 (dwellParts n group))) =
      { tag := tag, report := report, body := .dwell n.toNat group } := by
  have hl : wellLaid (rangesOf (axisParts tag report 2 (dwellParts n group))) = true := rfl
  have hgroup : present (blockOf (axisParts tag report 2 (dwellParts n group))) 1 = group.isSome := bit_blockOf hl (k := 3) rfl
  have hbyte := fld_blockOf hl (k := 5) rfl
  refine readAxisRecord_of_layout tag report hl ((readAxisBody_dwell_iff (field_blockOf hl (k := 0) rfl)).mpr
    ⟨(onlyFields_dwell _).mpr ⟨clear_blockOf rfl (by decide), clear_blockOf rfl (by decide), clear_blockOf rfl (by decide),
      clear_blockOf rfl (by decide), clear_blockOf rfl (by decide), clear_blockOf rfl (by decide),
      clear_of_absent hl (k := 5) rfl hgroup ?_⟩, hbyte.trans_lt (groupByte_lt group), ?_⟩) ?_
  · rintro rfl; rfl
  · rw [fld_blockOf hl (k := 4) rfl, hgroup, optField_groupByte group _ hbyte]
  · have hpos : n.toNat ≠ 0 := fun h => hn (BitVec.eq_of_toNat_eq h)
    have hlt := n.isLt
    simp only [AxisBody.inRange, Bool.and_eq_true, decide_eq_true_eq]
    omega

/-- The code of a source, as a byte. -/
def sourceByte (src : Source) : BitVec 8 := .ofNat 8 (sourceIx src).val

theorem sourceByte_reads (src : Source) : sourceOfCode (sourceByte src).toNat = some src := by
  cases src with
  | index => rfl
  | home => rfl
  | trg m => revert m; decide

def waitParts (src : Source) (fresh : Bool) (timeout : Option (BitVec 24)) (ref : Option Word) : List Part :=
  [⟨26, 1, .ofBool timeout.isSome⟩, ⟨27, 1, .ofBool ref.isSome⟩, ⟨64, 8, sourceByte src⟩,
    ⟨72, 8, (BitVec.ofBool fresh).setWidth 8⟩, ⟨96, 24, timeout.getD 0⟩, ⟨128, 32, ref.getD 0⟩]

theorem readAxisRecord_wait (src : Source) (fresh : Bool) (timeout : Option (BitVec 24)) (ref : Option Word)
    (htimeout : timeout ≠ some 0) :
    readAxisRecord (blockOf (axisParts tag report 3 (waitParts src fresh timeout ref))) =
      { tag := tag, report := report, body := .wait {
        src := src, policy := if fresh then .fresh else .latched, timeout := timeout.map BitVec.toNat, ref := ref } } := by
  have hl : wellLaid (rangesOf (axisParts tag report 3 (waitParts src fresh timeout ref))) = true := rfl
  have hlimit : present (blockOf (axisParts tag report 3 (waitParts src fresh timeout ref))) 2 = timeout.isSome :=
    bit_blockOf hl (k := 3) rfl
  have href : present (blockOf (axisParts tag report 3 (waitParts src fresh timeout ref))) 3 = ref.isSome :=
    bit_blockOf hl (k := 4) rfl
  refine readAxisRecord_of_layout tag report hl ((readAxisBody_wait_iff (field_blockOf hl (k := 0) rfl)).mpr
    ⟨(onlyFields_wait _).mpr ⟨clear_blockOf rfl (by decide), clear_blockOf rfl (by decide), clear_blockOf rfl (by decide),
      clear_blockOf rfl (by decide), clear_blockOf rfl (by decide), clear_blockOf rfl (by decide),
      clear_blockOf rfl (by decide), clear_of_absent hl (k := 7) rfl hlimit ?_, clear_of_absent hl (k := 8) rfl href ?_⟩,
      src, if fresh then .fresh else .latched, ?_, ?_, ?_⟩) ?_
  · rintro rfl; rfl
  · rintro rfl; rfl
  · rw [fld_blockOf hl (k := 5) rfl, sourceByte_reads]
  · rw [fld_blockOf hl (k := 6) rfl]
    cases fresh <;> rfl
  · have hcount := fld_blockOf hl (k := 7) rfl
    have hword := field_blockOf hl (k := 8) rfl
    rw [hcount, word, hword, hlimit, href, optField_getD timeout 0 BitVec.toNat]
    congr 2
    exact (optField_getD_self ref 0).symm
  · cases timeout with
    | none => rfl
    | some v =>
      have hpos : v.toNat ≠ 0 := fun h => htimeout (congrArg some (BitVec.eq_of_toNat_eq h))
      have hlt := v.isLt
      simp only [AxisBody.inRange, Option.map_some, optIn, Bool.and_eq_true, decide_eq_true_eq]
      omega

def setposParts (cmd enc : Option Word) : List Part :=
  [⟨28, 1, .ofBool cmd.isSome⟩, ⟨29, 1, .ofBool enc.isSome⟩, ⟨64, 32, cmd.getD 0⟩, ⟨96, 32, enc.getD 0⟩]

theorem readAxisRecord_setpos (cmd enc : Option Word) (hone : cmd.isSome = true ∨ enc.isSome = true) :
    readAxisRecord (blockOf (axisParts tag report 4 (setposParts cmd enc))) =
      { tag := tag, report := report, body := .setpos cmd enc } := by
  have hl : wellLaid (rangesOf (axisParts tag report 4 (setposParts cmd enc))) = true := rfl
  have hcmd : present (blockOf (axisParts tag report 4 (setposParts cmd enc))) 4 = cmd.isSome := bit_blockOf hl (k := 3) rfl
  have henc : present (blockOf (axisParts tag report 4 (setposParts cmd enc))) 5 = enc.isSome := bit_blockOf hl (k := 4) rfl
  have honly : onlyFields (blockOf (axisParts tag report 4 (setposParts cmd enc)))
      (setposFields (blockOf (axisParts tag report 4 (setposParts cmd enc)))) = true := by
    refine (onlyFields_setpos _).mpr ⟨clear_blockOf rfl (by decide), clear_blockOf rfl (by decide),
      clear_blockOf rfl (by decide), clear_blockOf rfl (by decide), clear_blockOf rfl (by decide),
      clear_of_absent hl (k := 5) rfl hcmd ?_, clear_of_absent hl (k := 6) rfl henc ?_⟩
    · rintro rfl; rfl
    · rintro rfl; rfl
  have hfirst := field_blockOf hl (k := 5) rfl
  have hsecond := field_blockOf hl (k := 6) rfl
  refine readAxisRecord_of_layout tag report hl ?_ ?_
  · rw [readAxisBody_setpos (field_blockOf hl (k := 0) rfl), if_pos honly, word, word, hfirst, hsecond, hcmd, henc,
      optField_getD_self, optField_getD_self]
  · simpa [AxisBody.inRange] using hone

theorem readAxisRecord_mark :
    readAxisRecord (blockOf (axisParts tag report 5 [])) = { tag := tag, report := report, body := .mark } := by
  have hl : wellLaid (rangesOf (axisParts tag report 5 [])) = true := rfl
  refine readAxisRecord_of_layout tag report hl ?_ rfl
  rw [readAxisBody_mark (field_blockOf hl (k := 0) rfl)]
  exact if_pos ((onlyFields_mark _).mpr ⟨clear_blockOf rfl (by decide), clear_blockOf rfl (by decide),
    clear_blockOf rfl (by decide), clear_blockOf rfl (by decide)⟩)

end

/-! ### The statements' expressions are such blocks -/

/-- A flag that stands for a whole byte. -/
theorem flag_byte (b : Bool) : ((BitVec.ofBool b).setWidth 256 : Block32) = ((BitVec.ofBool b).setWidth 8).setWidth 256 := by
  cases b <;> rfl

theorem groupByte_wide (group : Option (Fin 8)) :
    BitVec.ofNat 256 ((group.map Fin.val).getD 0) = (groupByte group).setWidth 256 :=
  ofNat_eq_setWidth (by decide) (by cases group with
    | none => decide
    | some g => exact g.isLt.trans (by decide))

/-- The source code as the statements write it. -/
def sourceWide (src : Source) : Block32 :=
  match src with
  | .index => 0
  | .home => 1
  | .trg m => BitVec.ofNat 256 (2 + m.val)

theorem sourceWide_eq (src : Source) : sourceWide src = (sourceByte src).setWidth 256 := by
  cases src with
  | index => rfl
  | home => rfl
  | trg m => exact ofNat_eq_setWidth (by decide) (by omega)

theorem blockOf_cons (f : Part) (l : List Part) : blockOf (f :: l) = l.foldl (fun d f => d ||| f.bits) f.bits := by
  rw [blockOf, List.foldl_cons, BitVec.zero_or]

/-- Settles O29. -/
theorem axisRecordsReadBack : Obligations.AxisRecordsReadBack := by
  intro tag report at8 flag head reads
  have hshift : ∀ (b : Bool) (i : Nat), at8 3 (flag b <<< i) = Part.bits ⟨i + 24, 1, .ofBool b⟩ := fun b i => flag_shift b i 24
  have hbyte : ∀ b : Bool, flag b = ((BitVec.ofBool b).setWidth 8).setWidth 256 := flag_byte
  refine ⟨?_, ?_, ?_, ?_, ?_⟩
  · intro reverse cont steps rate delta group body hr
    have hread := readAxisRecord_move tag report steps rate delta reverse cont group rfl hr
    rw [axisParts, blockOf_cons] at hread
    rw [hshift, hbyte reverse, hbyte cont, groupByte_wide]
    exact hread
  · intro n group hn
    have hread := readAxisRecord_dwell tag report n group hn
    rw [axisParts, blockOf_cons] at hread
    rw [hshift, groupByte_wide]
    exact hread
  · intro src fresh timeout ref htimeout
    have hread := readAxisRecord_wait tag report src fresh timeout ref htimeout
    rw [axisParts, blockOf_cons] at hread
    change reads (head 0x03 ||| at8 3 (flag timeout.isSome <<< 2) ||| at8 3 (flag ref.isSome <<< 3) ||| at8 8 (sourceWide src)
      ||| at8 9 (flag fresh) ||| at8 12 ((timeout.getD 0).setWidth 256) ||| at8 16 ((ref.getD 0).setWidth 256)) _
    rw [hshift, hshift, hbyte fresh, sourceWide_eq]
    exact hread
  · intro cmd enc hone
    have hread := readAxisRecord_setpos tag report cmd enc hone
    rw [axisParts, blockOf_cons] at hread
    rw [hshift, hshift]
    exact hread
  · have hread := readAxisRecord_mark tag report
    rw [axisParts, blockOf_cons] at hread
    exact hread

end Sys2Proof.Machine
end

section
/-! PROOFS. O30: what is laid out in the 32 bytes of a control record is what is read. -/

namespace Sys2Proof.Machine
open Sys2Proof

section
variable (tag : Word)

/-- The parts of a control record's header, and those of its kind. -/
def ctlParts (kind : BitVec 5) (index : BitVec 8) (body : List Part) : List Part :=
  ⟨0, 5, kind⟩ :: ⟨16, 8, index⟩ :: ⟨32, 32, tag⟩ :: body

theorem readCtlRecord_of_layout {kind : BitVec 5} {index : BitVec 8} {body : List Part} {b : CtlBody}
    (hl : wellLaid (rangesOf (ctlParts tag kind index body)) = true)
    (hread : readCtlBody (blockOf (ctlParts tag kind index body)) = some b) (hr : b.inRange = true) :
    readCtlRecord (blockOf (ctlParts tag kind index body)) = { tag := tag, body := b } := by
  rw [readCtlRecord_of_reads hread hr]
  congr 1
  exact field_blockOf hl (k := 2) rfl

/-- The byte of an axis or group index. -/
def indexByte {n : Nat} (i : Fin n) : BitVec 8 := .ofNat 8 i.val

theorem indexByte_toNat {n : Nat} (hn : n ≤ 256) (i : Fin n) : (indexByte i).toNat = i.val :=
  Nat.mod_eq_of_lt (i.isLt.trans_le hn)

/-- The index read back: it is in range and it is the one laid out. -/
theorem index_reads {n : Nat} (hn : n ≤ 256) (i : Fin n) {kind : BitVec 5} {body : List Part}
    (hl : wellLaid (rangesOf (ctlParts tag kind (indexByte i) body)) = true) :
    ∃ h : (headerIndex (blockOf (ctlParts tag kind (indexByte i) body))).toNat < n,
      (⟨(headerIndex (blockOf (ctlParts tag kind (indexByte i) body))).toNat, h⟩ : Fin n) = i := by
  have hindex : (headerIndex (blockOf (ctlParts tag kind (indexByte i) body))).toNat = i.val :=
    (fld_blockOf hl (k := 1) rfl).trans (indexByte_toNat hn i)
  exact ⟨hindex.trans_lt i.isLt, Fin.ext hindex⟩

/-- An index in a control record, taken apart where its record is read. -/
theorem exists_index {n : Nat} (hn : n ≤ 256) (i : Fin n) {kind : BitVec 5} {body : List Part} {f : Fin n → CtlBody}
    (hl : wellLaid (rangesOf (ctlParts tag kind (indexByte i) body)) = true) :
    ∃ h : (headerIndex (blockOf (ctlParts tag kind (indexByte i) body))).toNat < n,
      f i = f ⟨(headerIndex (blockOf (ctlParts tag kind (indexByte i) body))).toNat, h⟩ := by
  obtain ⟨h, hi⟩ := index_reads tag hn i hl
  exact ⟨h, by rw [hi]⟩

theorem readCtlRecord_bare (a : Axis) {kind : BitVec 5} {f : Axis → CtlBody} (hf : bareCommand kind = some f) :
    readCtlRecord (blockOf (ctlParts tag kind (indexByte a) [])) = { tag := tag, body := f a } := by
  have hl : wellLaid (rangesOf (ctlParts tag kind (indexByte a) [])) = true := rfl
  have hk : headerKind (blockOf (ctlParts tag kind (indexByte a) [])) = kind := field_blockOf hl (k := 0) rfl
  exact readCtlRecord_of_layout tag hl ((readCtlBody_bare (by rw [hk, hf])).mpr
    ⟨(onlyFields_index _).mpr ⟨clear_blockOf rfl (by decide), clear_blockOf rfl (by decide), clear_blockOf rfl (by decide),
      clear_blockOf rfl (by decide)⟩, exists_index tag (by decide) a hl⟩) (inRange_of_bareCommand hf a)

theorem readCtlRecord_clearGroup (g : GroupIx) :
    readCtlRecord (blockOf (ctlParts tag 0x18 (indexByte g) [])) = { tag := tag, body := .clearGroup g } := by
  have hl : wellLaid (rangesOf (ctlParts tag 0x18 (indexByte g) [])) = true := rfl
  exact readCtlRecord_of_layout tag hl ((readCtlBody_clearGroup (field_blockOf hl (k := 0) rfl)).mpr
    ⟨(onlyFields_index _).mpr ⟨clear_blockOf rfl (by decide), clear_blockOf rfl (by decide), clear_blockOf rfl (by decide),
      clear_blockOf rfl (by decide)⟩, exists_index tag (by decide) g hl⟩) rfl

theorem readCtlRecord_nop : readCtlRecord (blockOf (ctlParts tag 0x1B 0 [])) = { tag := tag, body := .nop } := by
  have hl : wellLaid (rangesOf (ctlParts tag 0x1B 0 [])) = true := rfl
  exact readCtlRecord_of_layout tag hl ((readCtlBody_nop (field_blockOf hl (k := 0) rfl)).mpr
    ⟨(onlyFields_plain _).mpr ⟨clear_blockOf rfl (by decide), clear_blockOf rfl (by decide), field_blockOf hl (k := 1) rfl,
      clear_blockOf rfl (by decide), clear_blockOf rfl (by decide)⟩, rfl⟩) rfl

def lineByte (l : LineSource) : BitVec 3 :=
  match l with
  | .own => 0
  | .trg m => .ofNat 3 (1 + m.val)

theorem lineByte_reads (l : LineSource) : lineSourceOfCode (lineByte l).toNat = some l := by
  cases l with
  | own => rfl
  | trg m => revert m; decide

/-- A configuration as the fields of a CONFIGURE_AXIS hold it. -/
structure ConfigFields where
  period : BitVec 16
  window : BitVec 16
  most : BitVec 32
  creep : BitVec 32
  jump : BitVec 32
  decel : BitVec 32
  counts : BitVec 8
  setup : BitVec 8
  width : BitVec 4
  inverted : Bool
  limits : Bool
  high : Bool
  index : LineSource
  home : LineSource

def ConfigFields.config (c : ConfigFields) : AxisConfig where
  updatePeriod := c.period.toNat
  maxRate := c.most.toNat
  creepRate := c.creep.toNat
  jumpLimit := c.jump.toNat
  stopDecel := c.decel.toNat
  countsPerStep := c.counts.toNat
  followWindow := c.window.toNat
  pulseWidth := c.width.toNat
  dirSetup := c.setup.toNat
  inverted := c.inverted
  limitsOn := c.limits
  limitHigh := c.high
  indexSrc := c.index
  homeSrc := c.home

def ConfigFields.parts (c : ConfigFields) : List Part :=
  [⟨64, 16, c.period⟩, ⟨80, 16, c.window⟩, ⟨96, 32, c.most⟩, ⟨128, 32, c.creep⟩, ⟨160, 32, c.jump⟩, ⟨192, 32, c.decel⟩,
    ⟨224, 8, c.counts⟩, ⟨232, 4, c.width⟩, ⟨236, 1, .ofBool c.inverted⟩, ⟨237, 1, .ofBool c.limits⟩,
    ⟨238, 1, .ofBool c.high⟩, ⟨240, 8, c.setup⟩, ⟨248, 3, lineByte c.index⟩, ⟨252, 3, lineByte c.home⟩]

theorem readAxisConfig_layout (kind : BitVec 5) (index : BitVec 8) (c : ConfigFields) :
    readAxisConfig (blockOf (ctlParts tag kind index c.parts)) = some c.config := by
  have hl : wellLaid (rangesOf (ctlParts tag kind index c.parts)) = true := rfl
  rw [readAxisConfig, fld_blockOf hl (k := 15) rfl, fld_blockOf hl (k := 16) rfl, lineByte_reads, lineByte_reads]
  refine congrArg some ?_
  rw [fld_blockOf hl (k := 3) rfl, fld_blockOf hl (k := 4) rfl, fld_blockOf hl (k := 5) rfl, fld_blockOf hl (k := 6) rfl,
    fld_blockOf hl (k := 7) rfl, fld_blockOf hl (k := 8) rfl, fld_blockOf hl (k := 9) rfl, fld_blockOf hl (k := 10) rfl,
    bit, bit_blockOf hl (k := 11) rfl, bit, bit_blockOf hl (k := 12) rfl, bit, bit_blockOf hl (k := 13) rfl,
    fld_blockOf hl (k := 14) rfl]
  rfl

theorem readCtlRecord_configureAxis (a : Axis) (c : ConfigFields) :
    readCtlRecord (blockOf (ctlParts tag 0x10 (indexByte a) c.parts)) = { tag := tag, body := .configureAxis a c.config } := by
  have hl : wellLaid (rangesOf (ctlParts tag 0x10 (indexByte a) c.parts)) = true := rfl
  exact readCtlRecord_of_layout tag hl ((readCtlBody_configureAxis (field_blockOf hl (k := 0) rfl)).mpr
    ⟨(onlyFields_configure _).mpr ⟨clear_blockOf rfl (by decide), clear_blockOf rfl (by decide), clear_blockOf rfl (by decide),
      clear_blockOf rfl (by decide), clear_blockOf rfl (by decide), clear_blockOf rfl (by decide)⟩,
      c.config, readAxisConfig_layout tag _ _ c, exists_index tag (by decide) a hl (f := fun a => .configureAxis a c.config)⟩) rfl

def inputsParts (fast slow : BitVec 8) (interval : BitVec 16) (polarity : BitVec 12) : List Part :=
  [⟨64, 8, fast⟩, ⟨72, 8, slow⟩, ⟨80, 16, interval⟩, ⟨96, 12, polarity⟩]

theorem readCtlRecord_configureInputs (fast slow : BitVec 8) (interval : BitVec 16) (polarity : BitVec 12) {b : CtlBody}
    (hb : b = .configureInputs {
      fastDepth := fast.toNat, slowDepth := slow.toNat, slowInterval := interval.toNat, polarity := polarity })
    (hr : b.inRange = true) :
    readCtlRecord (blockOf (ctlParts tag 0x11 0 (inputsParts fast slow interval polarity))) = { tag := tag, body := b } := by
  have hl : wellLaid (rangesOf (ctlParts tag 0x11 0 (inputsParts fast slow interval polarity))) = true := rfl
  refine readCtlRecord_of_layout tag hl ((readCtlBody_configureInputs (field_blockOf hl (k := 0) rfl)).mpr
    ⟨(onlyFields_inputs _).mpr ⟨clear_blockOf rfl (by decide), clear_blockOf rfl (by decide), field_blockOf hl (k := 1) rfl,
      clear_blockOf rfl (by decide), clear_blockOf rfl (by decide)⟩, ?_⟩) hr
  rw [hb, inputsOf, fld_blockOf hl (k := 3) rfl, fld_blockOf hl (k := 4) rfl, fld_blockOf hl (k := 5) rfl,
    field_blockOf hl (k := 6) rfl]

def stopParts (decel : Option (BitVec 32)) : List Part := [⟨30, 1, .ofBool decel.isSome⟩, ⟨64, 32, decel.getD 0⟩]

theorem readCtlRecord_stopAxis (a : Axis) (decel : Option (BitVec 32))
    (hdecel : ∀ v, decel = some v → 1 ≤ v.toNat ∧ v.toNat ≤ 262144) :
    readCtlRecord (blockOf (ctlParts tag 0x14 (indexByte a) (stopParts decel))) =
      { tag := tag, body := .stopAxis a (decel.map BitVec.toNat) } := by
  have hl : wellLaid (rangesOf (ctlParts tag 0x14 (indexByte a) (stopParts decel))) = true := rfl
  have hflag : present (blockOf (ctlParts tag 0x14 (indexByte a) (stopParts decel))) 6 = decel.isSome := bit_blockOf hl (k := 3) rfl
  refine readCtlRecord_of_layout tag hl ((readCtlBody_stopAxis (field_blockOf hl (k := 0) rfl)).mpr
    ⟨(onlyFields_stop _).mpr ⟨clear_blockOf rfl (by decide), clear_blockOf rfl (by decide), clear_blockOf rfl (by decide),
      clear_blockOf rfl (by decide), clear_blockOf rfl (by decide), clear_of_absent hl (k := 4) rfl hflag ?_⟩, ?_⟩) ?_
  · rintro rfl; rfl
  · rw [fld_blockOf hl (k := 4) rfl, hflag, optField_getD decel 0 BitVec.toNat]
    exact exists_index tag (by decide) a hl (f := fun a => .stopAxis a _)
  · cases decel with
    | none => rfl
    | some v => simpa [CtlBody.inRange, optIn] using hdecel v rfl

def clearFaultParts (resume realign : Bool) : List Part := [⟨64, 1, .ofBool resume⟩, ⟨65, 1, .ofBool realign⟩]

theorem readCtlRecord_clearFault (a : Axis) (resume realign : Bool) :
    readCtlRecord (blockOf (ctlParts tag 0x16 (indexByte a) (clearFaultParts resume realign))) =
      { tag := tag, body := .clearFault a resume realign } := by
  have hl : wellLaid (rangesOf (ctlParts tag 0x16 (indexByte a) (clearFaultParts resume realign))) = true := rfl
  refine readCtlRecord_of_layout tag hl ((readCtlBody_clearFault (field_blockOf hl (k := 0) rfl)).mpr
    ⟨(onlyFields_clearFault _).mpr ⟨clear_blockOf rfl (by decide), clear_blockOf rfl (by decide),
      clear_blockOf rfl (by decide), clear_blockOf rfl (by decide)⟩, ?_⟩) rfl
  rw [bit, bit_blockOf hl (k := 3) rfl, bit, bit_blockOf hl (k := 4) rfl]
  exact exists_index tag (by decide) a hl (f := fun a => .clearFault a resume realign)

def defineParts (m : AxisSet) (reusable : Bool) (timeout : Option (BitVec 16)) : List Part :=
  [⟨26, 1, .ofBool timeout.isSome⟩, ⟨64, 4, m⟩, ⟨72, 1, .ofBool reusable⟩, ⟨80, 16, timeout.getD 0⟩]

theorem readCtlRecord_defineGroup (g : GroupIx) (m : AxisSet) (reusable : Bool) (timeout : Option (BitVec 16))
    (hm : 2 ≤ setSize m) (htimeout : timeout ≠ some 0) :
    readCtlRecord (blockOf (ctlParts tag 0x17 (indexByte g) (defineParts m reusable timeout))) =
      { tag := tag, body := .defineGroup g m reusable (timeout.map BitVec.toNat) } := by
  have hl : wellLaid (rangesOf (ctlParts tag 0x17 (indexByte g) (defineParts m reusable timeout))) = true := rfl
  have hflag : present (blockOf (ctlParts tag 0x17 (indexByte g) (defineParts m reusable timeout))) 2 = timeout.isSome :=
    bit_blockOf hl (k := 3) rfl
  refine readCtlRecord_of_layout tag hl ((readCtlBody_defineGroup (field_blockOf hl (k := 0) rfl)).mpr
    ⟨(onlyFields_define _).mpr ⟨clear_blockOf rfl (by decide), clear_blockOf rfl (by decide), clear_blockOf rfl (by decide),
      clear_blockOf rfl (by decide), clear_blockOf rfl (by decide), clear_blockOf rfl (by decide),
      clear_blockOf rfl (by decide), clear_of_absent hl (k := 6) rfl hflag ?_⟩, ?_⟩) ?_
  · rintro rfl; rfl
  · rw [field_blockOf hl (k := 4) rfl, bit, bit_blockOf hl (k := 5) rfl, fld_blockOf hl (k := 6) rfl, hflag,
      optField_getD timeout 0 BitVec.toNat]
    exact exists_index tag (by decide) g hl (f := fun g => .defineGroup g m reusable _)
  · cases timeout with
    | none => simpa [CtlBody.inRange, optIn] using hm
    | some v =>
      have hpos : v.toNat ≠ 0 := fun h => htimeout (congrArg some (BitVec.eq_of_toNat_eq h))
      have hlt := v.isLt
      simp only [CtlBody.inRange, Option.map_some, optIn, Bool.and_eq_true, decide_eq_true_eq]
      omega

def armParts (src : Source) (count : Option (BitVec 8)) : List Part :=
  [⟨31, 1, .ofBool count.isSome⟩, ⟨72, 8, sourceByte src⟩, ⟨80, 8, count.getD 0⟩]

theorem readCtlRecord_arm (a : Axis) (src : Source) (count : Option (BitVec 8)) (hcount : count ≠ some 0) :
    readCtlRecord (blockOf (ctlParts tag 0x19 (indexByte a) (armParts src count))) =
      { tag := tag, body := .setCaptureArm a src (count.map BitVec.toNat) } := by
  have hl : wellLaid (rangesOf (ctlParts tag 0x19 (indexByte a) (armParts src count))) = true := rfl
  have hflag : present (blockOf (ctlParts tag 0x19 (indexByte a) (armParts src count))) 7 = count.isSome :=
    bit_blockOf hl (k := 3) rfl
  have haction : fld (blockOf (ctlParts tag 0x19 (indexByte a) (armParts src count))) 64 8 = 0 :=
    fld_eq_zero_of_clear (clear_blockOf rfl (by decide))
  refine readCtlRecord_of_layout tag hl ((readCtlBody_arm (field_blockOf hl (k := 0) rfl) haction).mpr
    ⟨(onlyFields_arm _).mpr ⟨clear_blockOf rfl (by decide), clear_blockOf rfl (by decide), clear_blockOf rfl (by decide),
      clear_blockOf rfl (by decide), clear_of_absent hl (k := 5) rfl hflag ?_⟩, src, ?_, ?_⟩) ?_
  · rintro rfl; rfl
  · rw [fld_blockOf hl (k := 4) rfl, sourceByte_reads]
  · rw [fld_blockOf hl (k := 5) rfl, hflag, optField_getD count 0 BitVec.toNat]
    exact exists_index tag (by decide) a hl (f := fun a => .setCaptureArm a src _)
  · cases count with
    | none => rfl
    | some v =>
      have hpos : v.toNat ≠ 0 := fun h => hcount (congrArg some (BitVec.eq_of_toNat_eq h))
      have hlt := v.isLt
      simp only [CtlBody.inRange, Option.map_some, optIn, Bool.and_eq_true, decide_eq_true_eq]
      omega

theorem readCtlRecord_disarm (a : Axis) :
    readCtlRecord (blockOf (ctlParts tag 0x19 (indexByte a) [⟨64, 8, 1⟩])) = { tag := tag, body := .setCaptureDisarm a } := by
  have hl : wellLaid (rangesOf (ctlParts tag 0x19 (indexByte a) [⟨64, 8, 1⟩])) = true := rfl
  exact readCtlRecord_of_layout tag hl
    ((readCtlBody_disarm (field_blockOf hl (k := 0) rfl) (fld_blockOf hl (k := 3) rfl)).mpr
    ⟨(onlyFields_disarm _).mpr ⟨clear_blockOf rfl (by decide), clear_blockOf rfl (by decide), clear_blockOf rfl (by decide),
      clear_blockOf rfl (by decide), clear_blockOf rfl (by decide), clear_blockOf rfl (by decide)⟩,
      exists_index tag (by decide) a hl⟩) rfl

end

/-! ### The statement's expressions are such blocks -/

theorem indexByte_wide {n : Nat} (hn : n ≤ 256) (i : Fin n) : BitVec.ofNat 256 i.val = (indexByte i).setWidth 256 :=
  ofNat_eq_setWidth (by decide) (i.isLt.trans_le hn)

/-- The line source code as the statement writes it. -/
def lineWide (l : LineSource) : Block32 :=
  match l with
  | .own => 0
  | .trg m => BitVec.ofNat 256 (1 + m.val)

theorem lineWide_eq (l : LineSource) : lineWide l = (lineByte l).setWidth 256 := by
  cases l with
  | own => rfl
  | trg m => exact ofNat_eq_setWidth (by decide) (by omega)

/-- Settles O30. -/
theorem controlRecordsReadBack : Obligations.ControlRecordsReadBack := by
  intro tag a g at8 flag head reads lineCode
  have hshift : ∀ (b : Bool) (n i : Nat), at8 n (flag b <<< i) = Part.bits ⟨i + 8 * n, 1, .ofBool b⟩ :=
    fun b n i => flag_shift b i (8 * n)
  have haxis : ∀ kind : Block32, head kind a.val = kind ||| Part.bits ⟨16, 8, indexByte a⟩ ||| Part.bits ⟨32, 32, tag⟩ :=
    fun kind => by rw [Part.bits, ← indexByte_wide (by decide)]; rfl
  have hgroup : ∀ kind : Block32, head kind g.val = kind ||| Part.bits ⟨16, 8, indexByte g⟩ ||| Part.bits ⟨32, 32, tag⟩ :=
    fun kind => by rw [Part.bits, ← indexByte_wide (by decide)]; rfl
  have hbare : ∀ (kind : BitVec 5) (f : Axis → CtlBody), bareCommand kind = some f →
      reads (head (Part.bits ⟨0, 5, kind⟩) a.val) (f a) := by
    intro kind f hf
    have hread := readCtlRecord_bare tag a hf
    rw [ctlParts, blockOf_cons] at hread
    rw [haxis]
    exact hread
  refine ⟨?_, ?_, hbare 0x12 _ rfl, hbare 0x13 _ rfl, hbare 0x15 _ rfl, hbare 0x1A _ rfl, ?_, ?_, ?_, ?_, ?_, ?_, ?_⟩
  · intro period window most creep jump decel counts setup width inverted limits high index home
    have hread := readCtlRecord_configureAxis tag a
      ⟨period, window, most, creep, jump, decel, counts, setup, width, inverted, limits, high, index, home⟩
    have hline : ∀ l, lineCode l = (lineByte l).setWidth 256 := lineWide_eq
    have hhome : at8 31 (lineCode home <<< 4) = Part.bits ⟨252, 3, lineByte home⟩ := by
      rw [hline]
      exact (BitVec.shiftLeft_add ..).symm
    rw [ctlParts, blockOf_cons] at hread
    rw [haxis, hshift, hshift, hshift, hhome, hline]
    exact hread
  · intro fast slow interval polarity hfast hfast' hslow hslow' hinterval hinterval'
    have hread := readCtlRecord_configureInputs tag fast slow interval polarity rfl (by
      simp only [CtlBody.inRange, Bool.and_eq_true, decide_eq_true_eq]
      omega)
    rw [ctlParts, blockOf_cons] at hread
    exact hread
  · have hread := readCtlRecord_clearGroup tag g
    rw [ctlParts, blockOf_cons] at hread
    rw [hgroup]
    exact hread
  · have hread := readCtlRecord_nop tag
    rw [ctlParts, blockOf_cons] at hread
    exact hread
  · intro decel hdecel
    have hread := readCtlRecord_stopAxis tag a decel hdecel
    rw [ctlParts, blockOf_cons] at hread
    rw [haxis, hshift]
    exact hread
  · intro resume realign
    have hread := readCtlRecord_clearFault tag a resume realign
    rw [ctlParts, blockOf_cons] at hread
    rw [haxis, hshift]
    exact hread
  · intro m reusable timeout hm htimeout
    have hread := readCtlRecord_defineGroup tag g m reusable timeout hm htimeout
    rw [ctlParts, blockOf_cons] at hread
    rw [hgroup, hshift]
    exact hread
  · intro src count hcount
    have hread := readCtlRecord_arm tag a src count hcount
    rw [ctlParts, blockOf_cons] at hread
    change reads (head 0x19 a.val ||| at8 3 (flag count.isSome <<< 7) ||| at8 9 (sourceWide src)
      ||| at8 10 ((count.getD 0).setWidth 256)) _
    rw [haxis, hshift, sourceWide_eq]
    exact hread
  · have hread := readCtlRecord_disarm tag a
    rw [ctlParts, blockOf_cons] at hread
    rw [haxis]
    exact hread

end Sys2Proof.Machine
end

section
/-! PROOFS. O2: what the block does by itself when no command waits. -/

namespace Sys2Proof.Machine
open Sys2Proof

/-! ### The events due -/

theorem mem_whenDue {b : Bool} {c d : Instr} : c ∈ whenDue b d ↔ c = d ∧ b = true := by
  cases b <;> simp [whenDue]

theorem ranOut_iff (t : Option Nat) : ranOut t = true ↔ t = some 0 := by
  rw [ranOut, beq_iff_eq]

theorem nextFetcher_isSome_iff (s : State) : (nextFetcher s).isSome = true ↔ ∃ r, fetcherRequests s r = true := by
  have hall : ∀ p r : Fin 5, r ∈ [p + 1, p + 2, p + 3, p + 4, p] := by decide
  rw [nextFetcher, List.find?_isSome]
  exact ⟨fun ⟨r, _, hr⟩ => ⟨r, hr⟩, fun ⟨r, hr⟩ => ⟨r, hall s.rr r, hr⟩⟩

theorem grantDue_iff (s : State) : s.grantDue = true ↔ s.port = none ∧
    ((s.dev = .starting ∧ s.setupRead ≠ none) ∨
      (s.dev ≠ .starting ∧ (writerRequests s = true ∨ ∃ r, fetcherRequests s r = true))) := by
  rw [State.grantDue, Bool.and_eq_true, Option.isNone_iff_eq_none, ← nextFetcher_isSome_iff]
  by_cases hdev : s.dev = .starting
  · simp [hdev, Option.isSome_iff_ne_none]
  · simp [hdev]

theorem mem_dueOfAxis (s : State) (a : Axis) (c : Instr) : c ∈ dueOfAxis s a ↔
    (c = .stepPulseEnd a ∧ (s.axis a).pulse = some 0) ∨
      (c = .updatePeriodExpiry a ∧ (s.axis a).timer = some 0 ∧ (s.axis a).pulse ≠ some 0) ∨
      (c = .stepPulseIssue a ∧ (s.axis a).schedule.head? = some 0 ∧ (s.axis a).pulse ≠ some 0) := by
  unfold dueOfAxis
  split
  next hpulse =>
    rw [ranOut_iff] at hpulse
    simp [hpulse]
  next hpulse =>
    rw [ranOut_iff] at hpulse
    simp [mem_whenDue, ranOut_iff, hpulse]

theorem mem_dueEvents (s : State) (c : Instr) : c ∈ dueEvents s ↔
    (c = .portGrant ∧ s.grantDue = true) ∨ (c = .quiesceEnd ∧ s.quiesceDone = true) ∨
      (c = .holdoffExpiry ∧ s.holdoff = some 0) ∨ (c = .qualifierSample .fast s.pins ∧ s.fastDue = true) ∨
      (c = .qualifierSample .slow s.pins ∧ s.slowDue = true) ∨ ∃ a, c ∈ dueOfAxis s a := by
  have hmem : ∀ a : Axis, a ∈ allAxes := by decide
  simp only [dueEvents, List.mem_append, List.mem_flatMap, mem_whenDue, ranOut_iff, hmem, true_and, or_assoc]

/-! ### No event due: 20 ns pass -/

theorem timeTick_of_running {s : State} (h : s.timeRunning = true) (hsub : s.subTick < 50) :
    (timeTick s).time.toNat * 50 + (timeTick s).subTick = (s.time.toNat * 50 + s.subTick + 1) % (2 ^ 32 * 50) := by
  have htime := s.time.isLt
  rw [timeTick, if_pos h]
  split
  next hnext =>
    change s.time.toNat * 50 + (s.subTick + 1) = _
    omega
  next hnext =>
    change (s.time + 1).toNat * 50 + 0 = _
    rw [BitVec.toNat_add]
    change (s.time.toNat + 1) % 2 ^ 32 * 50 + 0 = _
    omega

theorem timeTick_of_stopped {s : State} (h : s.timeRunning = false) : timeTick s = s :=
  if_neg (by rw [h]; decide)

theorem timeTick_eq (s : State) : timeTick s = { s with time := (timeTick s).time, subTick := (timeTick s).subTick } := by
  unfold timeTick
  split
  · split <;> rfl
  · rfl

theorem slowTick_eq (s : State) : slowTick s = { s with
    slowClock := if s.slowClock ≤ 1 then 50 * s.inputs.slowInterval else s.slowClock - 1
    slowDue := if s.slowClock ≤ 1 then true else s.slowDue } := by
  unfold slowTick
  split
  next => rw [ticksOf_eq]
  next => rfl

/-- The state after 20 ns, before the two clocks. -/
def ticked (s : State) : State := { s.mapAxes AxisBlock.tick with holdoff := lessTick s.holdoff, fastDue := true }

theorem tick_time (s : State) : (tick s).time = (timeTick (ticked s)).time := by
  rw [show tick s = slowTick (timeTick (ticked s)) from rfl, slowTick_eq]

theorem tick_subTick (s : State) : (tick s).subTick = (timeTick (ticked s)).subTick := by
  rw [show tick s = slowTick (timeTick (ticked s)) from rfl, slowTick_eq]

theorem tick_eq (s : State) : tick s = { s with
    axes := (tick s).axes, time := (tick s).time, subTick := (tick s).subTick, fastDue := true
    holdoff := s.holdoff.map fun n => n - 1
    slowClock := if s.slowClock ≤ 1 then 50 * s.inputs.slowInterval else s.slowClock - 1
    slowDue := if s.slowClock ≤ 1 then true else s.slowDue } := by
  rw [tick_time, tick_subTick, show tick s = slowTick (timeTick (ticked s)) from rfl, slowTick_eq, timeTick_eq]
  rfl

theorem tick_axis (s : State) (a : Axis) : (tick s).axis a = (s.axis a).tick := by
  rw [show tick s = slowTick (timeTick (ticked s)) from rfl, slowTick_eq, timeTick_eq]
  exact State.mapAxes_axis ..

theorem idle_of_none {s : State} (hdue : dueEvents s = []) (hheld : s.heldCan = false) : idle s = tick s := by
  rw [idle, hdue]
  exact if_neg (by rw [hheld]; decide)

theorem idle_of_held {s : State} (hdue : dueEvents s = []) (hheld : s.heldCan = true) : idle s = lookNow s := by
  rw [idle, hdue]
  exact if_pos hheld

/-! ### No event due and a held record that can have its entry -/

/-- Every accepted record but a CONFIGURE_INPUTS leaves the rest of the state. -/
theorem accept_rest {c : CtlRecord} (h : ∀ cfg, c.body ≠ .configureInputs cfg) (e : Fin 24) (s : State) :
    SameRest s (accept c e s) := by
  unfold accept
  split
  next => exact (acceptConfigureAxis_seq ..).rest
  next cfg hb => exact absurd hb (h cfg)
  next => exact (acceptEnableAxis_seq ..).rest
  next => exact (acceptDisableAxis_seq ..).rest
  next => exact (acceptStopAxis_seq ..).rest
  next => exact (acceptAbortAxis_seq ..).rest
  next => exact (acceptClearFault_seq ..).rest
  next => exact (acceptDefineGroup_seq ..).rest
  next => exact (acceptClearGroup_seq ..).rest
  next => exact (acceptCaptureArm_seq ..).rest
  next => exact (acceptCaptureDisarm_seq ..).rest
  next => exact (acceptReadStatus_seq ..).rest
  next => exact (completePlain_seq ..).rest
  next => exact (acceptInvalid_seq ..).rest

/-- The Time Counter stands as it stood. -/
def SameTime (s t : State) : Prop := t.time = s.time ∧ t.subTick = s.subTick

theorem SameRest.sameTime {s t : State} (h : SameRest s t) : SameTime s t := ⟨h.time, h.subTick⟩

theorem SameTime.trans {s t u : State} (h : SameTime s t) (k : SameTime t u) : SameTime s u :=
  ⟨k.1.trans h.1, k.2.trans h.2⟩

theorem restartSlowClock_sameTime (cfg : InputsConfig) (s : State) : SameTime s (restartSlowClock cfg s) := by
  unfold restartSlowClock
  split <;> exact ⟨rfl, rfl⟩

theorem acceptConfigureInputs_sameTime (c : CtlRecord) (e : Fin 24) (cfg : InputsConfig) (s : State) :
    SameTime s (acceptConfigureInputs c e cfg s) := by
  unfold acceptConfigureInputs
  split
  next =>
    refine (restartSlowClock_sameTime cfg s).trans (SameTime.trans (t := {
      restartSlowClock cfg s with inputs := cfg, lines := mapEach (fun l => { l with run := 0 }) (restartSlowClock cfg s).lines })
      ⟨rfl, rfl⟩ ?_)
    exact (completePlain_seq ..).rest.sameTime
  next => exact (completePlain_seq ..).rest.sameTime

theorem accept_sameTime (c : CtlRecord) (e : Fin 24) (s : State) : SameTime s (accept c e s) := by
  by_cases h : ∀ cfg, c.body ≠ .configureInputs cfg
  · exact (accept_rest h e s).sameTime
  · obtain ⟨cfg, hb⟩ := not_forall.mp h
    have haccept : accept c e s = acceptConfigureInputs c e cfg s := by rw [accept, not_not.mp hb]
    rw [haccept]
    exact acceptConfigureInputs_sameTime c e cfg s

theorem judgeRecord_sameTime (c : CtlRecord) (s : State) : SameTime s (judgeRecord c s) := by
  unfold judgeRecord
  split
  next => exact ⟨rfl, rfl⟩
  next => exact SameTime.trans (t := { s with interp := .waiting }) ⟨rfl, rfl⟩ (accept_sameTime ..)
  next e _ =>
    exact SameTime.trans (t := { s with interp := .waiting }.setEntry e (.reserved .control)) ⟨rfl, rfl⟩ (accept_sameTime ..)

/-- A record that can have its entry is accepted. -/
theorem judgeRecord_interp {c : CtlRecord} {s : State} (h : entryChoice c.body s ≠ .cannot) :
    (judgeRecord c s).interp = .waiting := by
  unfold judgeRecord
  split
  next hc => exact absurd hc h
  next => exact accept_interp ..
  next => exact accept_interp ..

theorem lookNow_accepts {s : State} (h : s.heldCan = true) :
    (lookNow s).interp = .waiting ∧ (lookNow s).pending = s.pending ∧ SameTime s (lookNow s) := by
  refine ⟨?_, (lookNow_quiet s).pending, ?_⟩
  · unfold State.heldCan at h
    unfold lookNow
    split
    next hi => exact hi
    next c hi =>
      rw [hi] at h
      exact (offIfAtRest_seq _).rest.interp.trans (judgeRecord_interp (bne_iff_ne.mp h))
  · unfold lookNow
    split
    next => exact ⟨rfl, rfl⟩
    next c _ => exact (judgeRecord_sameTime c s).trans (offIfAtRest_seq _).rest.sameTime

/-! ### Events due -/

/-- The event that joins the queue is one of those due. -/
theorem idle_of_due {s : State} (h : dueEvents s ≠ []) :
    ∃ c ∈ dueEvents s, idle s = { s with pending := [c], freeCount := s.freeCount + (dueEvents s).length } := by
  cases hdue : dueEvents s with
  | nil => exact absurd hdue h
  | cons c cs =>
    have hperm := arrange_perm s.freeCount (cs.length + 1) (c :: cs) le_rfl
    cases harr : arrange s.freeCount (cs.length + 1) (c :: cs) with
    | nil =>
      rw [harr] at hperm
      exact absurd hperm.symm.eq_nil (by simp)
    | cons d ds =>
      rw [harr] at hperm
      refine ⟨d, hperm.subset List.mem_cons_self, ?_⟩
      rw [idle, hdue]
      simp only [harr, List.head?_cons, Option.getD_some, List.length_cons]

/-- Settles O2. -/
theorem emptyQueueStep : Obligations.EmptyQueueStep := by
  intro s hpending writerAsks quiesced
  have hstep : step s = .next (idle s) := by rw [step, hpending]
  refine ⟨fun c => ?_, fun hdue hheld => ?_, fun hdue hheld => ?_, fun hdue => ?_⟩
  · simp only [mem_dueEvents, grantDue_iff, writerRequests_iff, quiesceDone_iff, mem_dueOfAxis]
    rfl
  · refine ⟨tick s, by rw [hstep, idle_of_none hdue hheld], tick_eq s, ?_, ?_, fun a => tick_axis s a⟩
    · rw [tick_time, tick_subTick]
      exact timeTick_of_running (s := ticked s)
    · intro hstopped
      rw [tick_time, tick_subTick, timeTick_of_stopped (s := ticked s) hstopped]
      exact ⟨rfl, rfl⟩
  · obtain ⟨hinterp, hqueue, htime, hsub⟩ := lookNow_accepts hheld
    exact ⟨lookNow s, by rw [hstep, idle_of_held hdue hheld], hinterp, hqueue.trans hpending, htime, hsub⟩
  · obtain ⟨c, hc, hidle⟩ := idle_of_due hdue
    exact ⟨c, hc, by rw [hstep, hidle]⟩

end Sys2Proof.Machine
end

section
/-! PROOFS. Going to OFF at rest, and O18: a bus error on a control read, a mirror write or a report write fails the device. -/

namespace Sys2Proof.Machine
open Sys2Proof

/-! ### Going to OFF -/

/-- Cancelling the fetches of the axes that go to OFF changes the fetchers alone. -/
theorem cancelForOff_eq (s : State) : cancelForOff s = { s with fetchers := (cancelForOff s).fetchers } := by
  have hfold : ∀ (l : List Axis) (t : State),
      l.foldl (fun t a => if (s.axis a).st = .off then t else t.modFetcher (axisRing a) Fetcher.cancel) t =
        { t with fetchers := (l.foldl (fun t a => if (s.axis a).st = .off then t
          else t.modFetcher (axisRing a) Fetcher.cancel) t).fetchers } := by
    intro l
    induction l with
    | nil => exact fun _ => rfl
    | cons a l ih =>
      intro t
      rw [List.foldl_cons, ih]
      split <;> rfl
  exact hfold allAxes s

/-- What a cancellation keeps of a fetcher, the axes that go to OFF keep. -/
theorem cancelForOff_fetcher {P : Fetcher → Prop} (hP : ∀ f, P f → P f.cancel) {s : State} (r : Fin 5) (h : P (s.fetcher r)) :
    P ((cancelForOff s).fetcher r) := by
  have hfold : ∀ (l : List Axis) (t : State), P (t.fetcher r) →
      P ((l.foldl (fun t a => if (s.axis a).st = .off then t else t.modFetcher (axisRing a) Fetcher.cancel) t).fetcher r) := by
    intro l
    induction l with
    | nil => exact fun _ ht => ht
    | cons a l ih =>
      intro t ht
      refine ih _ ?_
      change P ((if (s.axis a).st = .off then t else t.modFetcher (axisRing a) Fetcher.cancel).fetcher r)
      split
      next => exact ht
      next =>
        rw [State.modFetcher_fetcher]
        split
        next hr => exact hP _ (hr ▸ ht)
        next => exact ht
  exact hfold allAxes s h

/-- While an axis moves none goes to OFF. -/
theorem offIfAtRest_of_moving {s : State} {b : Axis} (h : (s.axis b).st.moving = true) : offIfAtRest s = s := by
  have hmem : ∀ a : Axis, a ∈ allAxes := by decide
  refine if_neg fun hall => ?_
  have hrest := List.all_eq_true.mp (Bool.and_eq_true _ _ ▸ hall).2 b (hmem b)
  simp [h] at hrest

/-- In a quiesce or a failure, with no axis moving, all go to OFF. -/
theorem offIfAtRest_of_rest {s : State} (hdev : s.dev = .quiescing ∨ s.dev = .failed)
    (h : ∀ b, (s.axis b).st.moving = false) :
    offIfAtRest s = (cancelForOff s).mapAxes fun x => x.toOff.disarm :=
  if_pos (by simp [hdev, h])

theorem offIfAtRest_of_dev {s : State} (hdev : ¬ (s.dev = .quiescing ∨ s.dev = .failed)) : offIfAtRest s = s :=
  offIfAtRest_of_ne (fun h => hdev (.inl h)) fun h => hdev (.inr h)

/-- Outside the axes and the fetchers nothing changes where axes go to OFF. -/
theorem offIfAtRest_eq (s : State) :
    offIfAtRest s = { s with axes := (offIfAtRest s).axes, fetchers := (offIfAtRest s).fetchers } := by
  unfold offIfAtRest
  split
  next => rw [cancelForOff_eq]; rfl
  next => rfl

theorem offIfAtRest_fetcher {P : Fetcher → Prop} (hP : ∀ f, P f → P f.cancel) {s : State} (r : Fin 5) (h : P (s.fetcher r)) :
    P ((offIfAtRest s).fetcher r) := by
  unfold offIfAtRest
  split
  next => exact cancelForOff_fetcher hP r h
  next => exact h

theorem offIfAtRest_entry (s : State) (e : Fin 24) : (offIfAtRest s).entry e = s.entry e := by
  rw [offIfAtRest_eq]; rfl

theorem offIfAtRest_group (s : State) (g : GroupIx) : (offIfAtRest s).group g = s.group g := by
  rw [offIfAtRest_eq]; rfl

theorem offIfAtRest_fillQueue (s : State) : (offIfAtRest s).fillQueue = s.fillQueue := by
  rw [offIfAtRest_eq]

theorem offIfAtRest_axis_of_rest {s : State} (hdev : s.dev = .quiescing ∨ s.dev = .failed)
    (h : ∀ b, (s.axis b).st.moving = false) (a : Axis) : (offIfAtRest s).axis a = (s.axis a).toOff.disarm := by
  rw [offIfAtRest_of_rest hdev h, State.mapAxes_axis, cancelForOff_eq]
  rfl

theorem AxisBlock.toOff_st (x : AxisBlock) : x.toOff.st = .off := by
  unfold AxisBlock.toOff
  split
  next h => exact h
  next => rfl

theorem AxisBlock.toOff_disarm_idem (x : AxisBlock) : x.toOff.disarm.toOff.disarm = x.toOff.disarm := by
  rw [AxisBlock.toOff_of_off (x := x.toOff.disarm) x.toOff_st]
  rfl

/-- Going to OFF once is going to OFF. -/
theorem offIfAtRest_idem (s : State) : offIfAtRest (offIfAtRest s) = offIfAtRest s := by
  by_cases hdev : s.dev = .quiescing ∨ s.dev = .failed
  · by_cases hrest : ∀ b, (s.axis b).st.moving = false
    · have hoff : ∀ a, ((offIfAtRest s).axis a).st = .off := fun a => by
        rw [offIfAtRest_axis_of_rest hdev hrest]
        exact AxisBlock.toOff_st _
      have hdev' : (offIfAtRest s).dev = .quiescing ∨ (offIfAtRest s).dev = .failed := by
        rwa [(offIfAtRest_seq s).rest.dev]
      have hnone : cancelForOff (offIfAtRest s) = offIfAtRest s := by
        have hfold : ∀ (l : List Axis) (t : State), l.foldl (fun t a => if ((offIfAtRest s).axis a).st = .off then t
            else t.modFetcher (axisRing a) Fetcher.cancel) t = t := by
          intro l
          induction l with
          | nil => exact fun _ => rfl
          | cons a l ih => exact fun t => by rw [List.foldl_cons, if_pos (hoff a), ih]
        exact hfold allAxes _
      rw [offIfAtRest_of_rest hdev' fun b => by rw [hoff]; rfl, hnone, offIfAtRest_of_rest hdev hrest]
      simp only [State.mapAxes]
      congr 1
      refine Vector.ext fun i hi => ?_
      simp only [mapEach_getElem]
      exact AxisBlock.toOff_disarm_idem _
    · obtain ⟨b, hb⟩ := not_forall.mp hrest
      rw [Bool.not_eq_false] at hb
      rw [offIfAtRest_of_moving hb, offIfAtRest_of_moving hb]
  · rw [offIfAtRest_of_dev hdev, offIfAtRest_of_dev hdev]

/-- With no record in hand nothing follows from a command but that axes at rest go to OFF. -/
theorem settle_of_waiting {s : State} (h : s.interp = .waiting) : settle s = offIfAtRest s := by
  have hlook : lookAgain (offIfAtRest s) = offIfAtRest s := by
    have hi : (offIfAtRest s).interp = .waiting := (offIfAtRest_seq s).rest.interp.trans h
    rw [lookAgain, hi]
  rw [settle, hlook, offIfAtRest_idem]

/-! ### Failure -/

/-- The device at its entry to FAILED, before any axis at rest goes to OFF (R171). -/
def enterFailed (f : Failure) (s : State) : State :=
  { s with
    dev := .failed, failure := some f, failFlag := true, interp := .waiting
    entries := Vector.replicate 24 .free, fillQueue := [], claim := none
    fetchers := mapEach Fetcher.cancel s.fetchers, groups := Vector.replicate 8 Group.reset
    axes := mapEach AxisBlock.failing s.axes }

theorem deviceFail_eq (f : Failure) {s : State} (h : s.dev = .online ∨ s.dev = .quiescing) :
    deviceFail f s = offIfAtRest (enterFailed f s) := if_pos (by simp [h])

theorem enterFailed_axis (f : Failure) (s : State) (a : Axis) : (enterFailed f s).axis a = (s.axis a).failing := by
  simp [enterFailed, State.axis]

theorem AxisBlock.failing_of_moving {x : AxisBlock} (h : x.st.moving = true) :
    x.failing = ({ x with st := .rampDown, decel := x.cfg.stopDecel, stopReq := none }).disarm := by
  rw [AxisBlock.failing, if_pos h]
  rfl

theorem AxisBlock.failing_of_rest {x : AxisBlock} (h : x.st.moving = false) :
    x.failing = ({ x with stopReq := none }).disarm := by
  rw [AxisBlock.failing, if_neg (by simp [h])]

theorem AxisBlock.failing_moving (x : AxisBlock) : x.failing.st.moving = x.st.moving := by
  cases h : x.st.moving with
  | true => rw [AxisBlock.failing_of_moving h]; rfl
  | false => rw [AxisBlock.failing_of_rest h]; exact h

/-- What going to OFF, disarming and the entry to FAILED keep of an axis. -/
theorem AxisBlock.toOff_disarm_keeps (x : AxisBlock) :
    x.toOff.disarm.arm.armed = false ∧ x.toOff.disarm.cmdPos = x.cmdPos ∧ x.toOff.disarm.encPos = x.encPos ∧
      x.toOff.disarm.cfg = x.cfg := by
  unfold AxisBlock.toOff
  split <;> exact ⟨rfl, rfl, rfl, rfl⟩

theorem AxisBlock.failing_keeps (x : AxisBlock) :
    x.failing.arm.armed = false ∧ x.failing.cmdPos = x.cmdPos ∧ x.failing.cfg = x.cfg := by
  unfold AxisBlock.failing
  split <;> exact ⟨rfl, rfl, rfl⟩

/-- What O18 says of the state a failure leaves. -/
structure FailsWith (f : Failure) (s t : State) : Prop where
  dev : t.dev = .failed
  failure : t.failure = some f
  flag : t.failFlag = true
  port : t.port = s.port
  entries : ∀ e, t.entry e = .free
  queue : t.fillQueue = []
  interp : t.interp = .waiting
  groups : ∀ g, t.group g = Group.reset
  cancelled : ∀ r i, (t.fetcher r).inFlight = some i → i.cancelled = true
  tail : t.writer = s.writer
  count : t.writeCount = s.writeCount
  kept : ∀ a, (t.axis a).arm.armed = false ∧ (t.axis a).cmdPos = (s.axis a).cmdPos ∧ (t.axis a).cfg = (s.axis a).cfg
  moving : (∃ b, (s.axis b).st.moving = true) → ∀ a, t.axis a = (s.axis a).failing
  rest : (∀ b, (s.axis b).st.moving = false) → ∀ a, (t.axis a).st = .off

theorem Fetcher.cancel_cancelled (f : Fetcher) (i : Fetch) (h : f.cancel.inFlight = some i) : i.cancelled = true := by
  obtain ⟨j, _, hj⟩ := Option.map_eq_some_iff.mp h
  rw [← hj]

theorem deviceFail_fails (f : Failure) {s : State} (h : s.dev = .online ∨ s.dev = .quiescing) :
    FailsWith f s (deviceFail f s) := by
  rw [deviceFail_eq f h]
  have hrest := (offIfAtRest_seq (enterFailed f s)).rest
  have hmoving : ∀ a, ((enterFailed f s).axis a).st.moving = (s.axis a).st.moving := fun a => by
    rw [enterFailed_axis, AxisBlock.failing_moving]
  refine {
    dev := hrest.dev, failure := hrest.failure, flag := hrest.failFlag, port := hrest.port
    entries := fun e => ?_, queue := offIfAtRest_fillQueue _, interp := hrest.interp, groups := fun g => ?_
    cancelled := fun r => ?_, tail := hrest.writer, count := hrest.writeCount, kept := fun a => ?_
    moving := fun ⟨b, hb⟩ a => ?_, rest := fun hall a => ?_ }
  · rw [offIfAtRest_entry]
    simp [enterFailed, State.entry]
  · rw [offIfAtRest_group]
    simp [enterFailed, State.group]
  · refine offIfAtRest_fetcher (P := fun f => ∀ i, f.inFlight = some i → i.cancelled = true)
      (fun f _ i => f.cancel_cancelled i) r fun i hi => ?_
    have hf : (enterFailed f s).fetcher r = (s.fetcher r).cancel := by simp [enterFailed, State.fetcher]
    rw [hf] at hi
    exact Fetcher.cancel_cancelled _ i hi
  · obtain ⟨harm, hpos, hcfg⟩ := (s.axis a).failing_keeps
    by_cases hall : ∀ b, (s.axis b).st.moving = false
    · rw [offIfAtRest_axis_of_rest (.inr rfl) fun b => (hmoving b).trans (hall b), enterFailed_axis]
      obtain ⟨harm', hpos', -, hcfg'⟩ := (s.axis a).failing.toOff_disarm_keeps
      exact ⟨harm', hpos'.trans hpos, hcfg'.trans hcfg⟩
    · obtain ⟨b, hb⟩ := not_forall.mp hall
      rw [offIfAtRest_of_moving (b := b) ((hmoving b).trans (Bool.not_eq_false _ ▸ hb)), enterFailed_axis]
      exact ⟨harm, hpos, hcfg⟩
  · rw [offIfAtRest_of_moving (b := b) ((hmoving b).trans hb), enterFailed_axis]
  · rw [offIfAtRest_axis_of_rest (.inr rfl) fun b => (hmoving b).trans (hall b)]
    exact AxisBlock.toOff_st _

theorem settle_deviceFail (f : Failure) {s : State} (h : s.dev = .online ∨ s.dev = .quiescing) :
    settle (deviceFail f s) = deviceFail f s := by
  rw [settle_of_waiting (deviceFail_fails f h).interp, deviceFail_eq f h, offIfAtRest_idem]

/-- The three accesses whose bus error fails the device do so with the port free and the rest of the state as it was. -/
theorem busError_fails {s t : State} {f : Failure} (hdev : s.dev = .online ∨ s.dev = .quiescing)
    (h : ((∃ ad, s.port = some (.fetchRead 0 ad)) ∧ (∃ i, (s.fetcher 0).inFlight = some { slot := i, cancelled := false }) ∧
        f = { access := .controlRead, ring := 0 } ∧ exec (.fetchReadComplete .busError) s = .next t) ∨
      (∃ r ad v, (s.port = some (.mirror r ad v) ∨ s.port = some (.fetchMirror r ad v)) ∧
        f = { access := .mirrorWrite, ring := r.castSucc } ∧ exec (.mirrorWriteComplete true) s = .next t) ∨
      ((∃ e ad v, s.port = some (.report e ad v)) ∧
        f = { access := .completionWrite, ring := 5 } ∧ exec (.completionWriteComplete true) s = .next t)) :
    ∃ u : State, t = deviceFail f u ∧ u.dev = s.dev ∧ u.port = none ∧ u.axes = s.axes ∧ u.writeCount = s.writeCount ∧
      u.writer.tail = s.writer.tail ∧ u.writer.seq = s.writer.seq := by
  have hnot : s.dev ≠ .failed := by obtain hd | hd := hdev <;> simp [hd]
  obtain ⟨⟨ad, hport⟩, ⟨i, hflight⟩, rfl, hexec⟩ | ⟨r, ad, v, hport, rfl, hexec⟩ | ⟨⟨e, ad, v, hport⟩, rfl, hexec⟩ := h
  · refine ⟨endFetch 0 s, ?_, rfl, rfl, rfl, rfl, rfl, rfl⟩
    have hread : exec (.fetchReadComplete .busError) s = .next (fetchReadEnd 0 .busError s) := exec_fetchReadComplete hport _
    rw [hread] at hexec
    have ht : t = settle (readFailed 0 (endFetch 0 s)) := by
      rw [← Host.Outcome.next.inj hexec]
      exact if_neg (by simp [hflight, hnot])
    rw [ht, show readFailed 0 (endFetch 0 s) = deviceFail _ (endFetch 0 s) from rfl]
    exact settle_deviceFail _ hdev
  · obtain hport | hport := hport
    · refine ⟨{ s with port := none }, ?_, rfl, rfl, rfl, rfl, rfl, rfl⟩
      have hend : exec (.mirrorWriteComplete true) s = .next (mirrorEnd r true { s with port := none }) := by
        change execMirrorWriteComplete true s = _
        rw [execMirrorWriteComplete, hport]
      exact (Host.Outcome.next.inj (hend.symm.trans hexec)).symm
    · refine ⟨endFetch r s, ?_, rfl, rfl, rfl, rfl, rfl, rfl⟩
      have hend : exec (.mirrorWriteComplete true) s = .next (mirrorEnd r true (endFetch r s)) := by
        change execMirrorWriteComplete true s = _
        rw [execMirrorWriteComplete, hport]
      exact (Host.Outcome.next.inj (hend.symm.trans hexec)).symm
  · refine ⟨{ s with port := none, writer := { s.writer with inFlight := none } }, ?_, rfl, rfl, rfl, rfl, rfl, rfl⟩
    have hend : exec (.completionWriteComplete true) s = .next (reportEnd e true s) := by
      change execCompletionWriteComplete true s = _
      rw [execCompletionWriteComplete, hport]
    rw [← Host.Outcome.next.inj (hend.symm.trans hexec), reportEnd, if_neg hnot]
    rfl

/-- Settles O18. -/
theorem busErrorsFailTheDevice : Obligations.BusErrorsFailTheDevice := by
  intro s t f hdev h
  obtain ⟨u, rfl, hu, hport, haxes, hcount, htail, hseq⟩ := busError_fails hdev h
  have hfail := deviceFail_fails f (s := u) (by rwa [hu])
  have haxis : ∀ a, u.axis a = s.axis a := fun a => by rw [State.axis, haxes]; rfl
  simp only [← haxis]
  refine ⟨hfail.dev, hfail.failure, hfail.flag, (faultOut_iff _).mpr (.inr hfail.dev), hfail.port.trans hport, hfail.entries,
    hfail.queue, hfail.interp, hfail.groups, hfail.cancelled, by rw [hfail.tail, htail], by rw [hfail.tail, hseq],
    hfail.count.trans hcount, hfail.kept, fun hmoving a => ⟨fun ha => ?_, fun ha => ?_⟩, hfail.rest⟩
  · rw [hfail.moving hmoving, AxisBlock.failing_of_moving ha]
    exact ⟨rfl, rfl, rfl, rfl⟩
  · rw [hfail.moving hmoving, AxisBlock.failing_of_rest ha]
    rfl

end Sys2Proof.Machine
end

section
/-! PROOFS. The control records that complete at their acceptance: O51, O52, O56 and O58. -/

namespace Sys2Proof.Machine
open Sys2Proof

/-! ### Acceptance with a general entry -/

/-- A valid record that needs a general entry, with one FREE, is accepted with it: where its effect is `u` and its report `r`, that
is what the command leaves. -/
theorem completes_general {s u : State} {tag : Word} {b : CtlBody} {r : Report} (h : s.Ready) (hfree : ∃ e, s.FreeGeneral e)
    (hb : b.inRange = true) (hs : entryChoice b s = generalChoice s)
    (hacc : ∀ e, accept { tag := tag, body := b } e (s.setEntry e (.reserved .control)) = u.withReport e r)
    (hdev : u.dev = .online) (hinterp : u.interp = .waiting) :
    ∃ e, s.FreeGeneral e ∧ exec (b.instr tag) s = .next (u.withReport e r) := by
  obtain ⟨e, he⟩ := freeGeneral_of hfree
  refine ⟨e, freeGeneral_some he, ?_⟩
  rw [exec_instr, deliverCommand_takes_general h he hb hs (hacc e) hdev hinterp]

/-- A report shows the positions of its axis and the time, and nothing else of the state. -/
theorem ctlReport_congr {s t : State} (htime : t.time = s.time) {a? : Option Axis}
    (hpos : ∀ a, a? = some a → (t.axis a).cmdPos = (s.axis a).cmdPos ∧ (t.axis a).encPos = (s.axis a).encPos) (tag : Word)
    (k : BitVec 5) (st : Status) (n m : Nat) (x y : Word) :
    ctlReport t a? tag k st n m x y = ctlReport s a? tag k st n m x y := by
  cases a? with
  | none => rw [ctlReport, ctlReport, htime]
  | some a =>
    obtain ⟨hcmd, henc⟩ := hpos a rfl
    rw [ctlReport, ctlReport, htime]
    simp only [hcmd, henc]

/-- An update of the axis that keeps its positions leaves the contents of its reports. -/
theorem ctlReport_modAxis {s : State} {a : Axis} {f : AxisBlock → AxisBlock} (hcmd : (f (s.axis a)).cmdPos = (s.axis a).cmdPos)
    (henc : (f (s.axis a)).encPos = (s.axis a).encPos) (tag : Word) (k : BitVec 5) (st : Status) (n m : Nat) (x y : Word) :
    ctlReport (s.modAxis a f) (some a) tag k st n m x y = ctlReport s (some a) tag k st n m x y := by
  refine ctlReport_congr (s := s) (t := s.modAxis a f) rfl (fun b hb => ?_) ..
  cases hb
  rw [State.modAxis_axis_same]
  exact ⟨hcmd, henc⟩

section
variable {s : State} (h : s.Ready) (e : Fin 24)
include h

theorem Ready.not_failed : s.dev ≠ .failed := by rw [h.1]; decide

/-- A completion without effect, in the entry just taken. -/
theorem completePlain_taken (c : CtlRecord) (st : Status) :
    completePlain c e st (s.setEntry e (.reserved .control)) =
      s.withReport e (ctlReport s c.body.axis? c.tag c.body.kind st 0 0 0 0) := by
  rw [completePlain, complete_eq c e st 0 0 0 0 (s := s.setEntry e _) (Ready.not_failed h), State.setEntry_withReport, ctlReport_setEntry]

theorem complete_taken (c : CtlRecord) (st : Status) (n k : Nat) (x y : Word) :
    complete c e st n k x y (s.setEntry e (.reserved .control)) =
      s.withReport e (ctlReport s c.body.axis? c.tag c.body.kind st n k x y) := by
  rw [complete_eq c e st n k x y (s := s.setEntry e _) (Ready.not_failed h), State.setEntry_withReport, ctlReport_setEntry]

/-- A completion after an update of the record's axis that keeps its positions. -/
theorem complete_modAxis_taken (c : CtlRecord) {a : Axis} (ha : c.body.axis? = some a) (st : Status) (n k : Nat) (x y : Word)
    {f : AxisBlock → AxisBlock} (hcmd : (f (s.axis a)).cmdPos = (s.axis a).cmdPos)
    (henc : (f (s.axis a)).encPos = (s.axis a).encPos) :
    complete c e st n k x y ((s.setEntry e (.reserved .control)).modAxis a f) =
      (s.modAxis a f).withReport e (ctlReport s (some a) c.tag c.body.kind st n k x y) := by
  rw [State.setEntry_modAxis, complete_eq c e st n k x y (s := (s.modAxis a f).setEntry e _) (Ready.not_failed h), State.setEntry_withReport, ctlReport_setEntry,
    ha, ctlReport_modAxis hcmd henc]

end

/-! ### CONFIGURE_AXIS -/

/-- The conditions of Table 10-4, in order. -/
def configConditions (c : AxisConfig) : List Prop := [
  10 ≤ c.updatePeriod ∧ c.updatePeriod ≤ 2000, 1 ≤ c.maxRate ∧ c.maxRate ≤ 262144, 1 ≤ c.creepRate ∧ c.creepRate ≤ 262144,
  1 ≤ c.jumpLimit ∧ c.jumpLimit ≤ 262144, 1 ≤ c.stopDecel ∧ c.stopDecel ≤ 262144, c.countsPerStep ≤ 64,
  1 ≤ c.followWindow ∧ c.followWindow ≤ 65535, 1 ≤ c.pulseWidth ∧ c.pulseWidth ≤ 8, 1 ≤ c.dirSetup ∧ c.dirSetup ≤ 50,
  c.creepRate ≤ c.maxRate, 8 * c.pulseWidth ≤ c.updatePeriod, 4 * (c.dirSetup + c.pulseWidth) ≤ c.updatePeriod]

/-- The check at place `n` has number `n + 1` and passes exactly where its condition holds. -/
theorem configChecks_getElem (c : AxisConfig) {n : Nat} {p : Prop} (h : (configConditions c)[n]? = some p) :
    ∃ b, (configChecks c)[n]? = some (n + 1, b) ∧ (b = true ↔ p) := by
  match n with
  | 0 | 1 | 2 | 3 | 4 | 5 | 6 | 7 | 8 | 9 =>
    cases h
    exact ⟨_, rfl, by simp⟩
  | 10 | 11 =>
    cases h
    exact ⟨_, rfl, by rw [decide_eq_true_eq, Nat.mul_comm]⟩
  | _ + 12 => simp [configConditions] at h

theorem firstFailing_of_passes {c : AxisConfig} (h : ∀ p ∈ configConditions c, p) : firstFailing c = none := by
  rw [firstFailing, Option.map_eq_none_iff, List.find?_eq_none]
  intro q hq
  obtain ⟨n, hn, rfl⟩ := List.getElem_of_mem hq
  have hlt : n < (configConditions c).length := hn
  have hlen : (configConditions c)[n]? = some (configConditions c)[n] := List.getElem?_eq_getElem hlt
  obtain ⟨b, hb, hp⟩ := configChecks_getElem c hlen
  rw [List.getElem?_eq_getElem hn, Option.some.injEq] at hb
  rw [hb]
  simp [hp.mpr (h _ (List.getElem_mem hlt))]

theorem firstFailing_of_fails {c : AxisConfig} {n : Nat} {p : Prop} (hn : (configConditions c)[n]? = some p) (hp : ¬ p)
    (hfirst : ∀ k < n, ∀ q, (configConditions c)[k]? = some q → q) : firstFailing c = some (n + 1) := by
  obtain ⟨b, hb, hbp⟩ := configChecks_getElem c hn
  have hfalse : b = false := Bool.eq_false_iff.mpr fun htrue => hp (hbp.mp htrue)
  obtain ⟨hlt, hget⟩ := List.getElem?_eq_some_iff.mp hb
  have hfind : (configChecks c).find? (fun p => ! p.2) = some (n + 1, b) := by
    refine List.find?_eq_some_iff_getElem.mpr ⟨by simp [hfalse], n, hlt, hget, fun k hk => ?_⟩
    have hk' : k < (configConditions c).length := hk.trans hlt
    have hlen : (configConditions c)[k]? = some (configConditions c)[k] := List.getElem?_eq_getElem hk'
    obtain ⟨b', hb', hq⟩ := configChecks_getElem c hlen
    rw [List.getElem?_eq_getElem (hk.trans hlt), Option.some.injEq] at hb'
    rw [hb']
    simp [hq.mpr (hfirst k hk _ hlen)]
  rw [firstFailing, hfind]
  rfl

/-! ### CONFIGURE_INPUTS -/

theorem inputsInRange_iff (c : InputsConfig) : (CtlBody.configureInputs c).inRange = true ↔
    (1 ≤ c.fastDepth ∧ c.fastDepth ≤ 7) ∧ (1 ≤ c.slowInterval ∧ c.slowInterval ≤ 1000) ∧
      (2 ≤ c.slowDepth ∧ c.slowDepth ≤ 15) := by
  simp [CtlBody.inRange, and_assoc]

theorem allOff_iff (s : State) : (allAxes.all fun a => (s.axis a).st == .off) = true ↔ ∀ a, (s.axis a).st = .off := by
  have hmem : ∀ a : Axis, a ∈ allAxes := by decide
  simp [List.all_eq_true, hmem]

/-- The state with the settings of an accepted CONFIGURE_INPUTS. -/
def withInputs (c : InputsConfig) (s : State) : State :=
  { restartSlowClock c s with inputs := c, lines := mapEach (fun l => { l with run := 0 }) (restartSlowClock c s).lines }

theorem restartSlowClock_eq (c : InputsConfig) (s : State) : restartSlowClock c s = { s with
    slowClock := if c.slowInterval = s.inputs.slowInterval then s.slowClock else 50 * c.slowInterval
    slowDue := if c.slowInterval = s.inputs.slowInterval then s.slowDue else false } := by
  unfold restartSlowClock
  split
  next => rfl
  next => rw [ticksOf_eq]

theorem withInputs_eq (c : InputsConfig) (s : State) : withInputs c s = { s with
    inputs := c, lines := mapEach (fun l => { l with run := 0 }) s.lines
    slowClock := if c.slowInterval = s.inputs.slowInterval then s.slowClock else 50 * c.slowInterval
    slowDue := if c.slowInterval = s.inputs.slowInterval then s.slowDue else false } := by
  rw [withInputs, restartSlowClock_eq]

theorem withInputs_line (c : InputsConfig) (s : State) (l : Line) : (withInputs c s).line l = { s.line l with run := 0 } := by
  have hlines : (withInputs c s).lines = mapEach (fun l => { l with run := 0 }) s.lines := by rw [withInputs_eq]
  rw [State.line, hlines, mapEach_getElem_fin]
  rfl

theorem withInputs_slowClock (c : InputsConfig) (s : State) : (withInputs c s).slowClock =
    if c.slowInterval = s.inputs.slowInterval then s.slowClock else 50 * c.slowInterval := by rw [withInputs_eq]

theorem withInputs_slowDue (c : InputsConfig) (s : State) : (withInputs c s).slowDue =
    if c.slowInterval = s.inputs.slowInterval then s.slowDue else false := by rw [withInputs_eq]

/-- Only the settings, the lines and the slow clock change. -/
theorem withInputs_rest (c : InputsConfig) (s : State) : withInputs c s = { s with
    inputs := c, lines := (withInputs c s).lines, slowClock := (withInputs c s).slowClock
    slowDue := (withInputs c s).slowDue } := by rw [withInputs_eq]

theorem withInputs_setEntry (c : InputsConfig) (s : State) (e : Fin 24) (v : Entry) :
    withInputs c (s.setEntry e v) = (withInputs c s).setEntry e v := by
  rw [withInputs_eq, withInputs_eq]
  rfl

theorem acceptConfigureInputs_of_off (r : CtlRecord) (e : Fin 24) (c : InputsConfig) {s : State}
    (hoff : (allAxes.all fun a => (s.axis a).st == .off) = true) :
    acceptConfigureInputs r e c s = completePlain r e .ok (withInputs c s) := if_pos hoff

theorem acceptConfigureInputs_off (c : InputsConfig) (tag : Word) (e : Fin 24) {s : State} (h : s.Ready)
    (hoff : ∀ a, (s.axis a).st = .off) :
    acceptConfigureInputs { tag := tag, body := .configureInputs c } e c (s.setEntry e (.reserved .control)) =
      (withInputs c s).withReport e (ctlReport s none tag 0x11 .ok 0 0 0 0) := by
  have hdev : ((withInputs c s).setEntry e (.reserved .control)).dev ≠ .failed := by
    rw [withInputs_eq]
    exact Ready.not_failed h
  have htime : (withInputs c s).time = s.time := by rw [withInputs_eq]
  have hoff' : (allAxes.all fun a => ((s.setEntry e (.reserved .control)).axis a).st == .off) = true := (allOff_iff s).mpr hoff
  rw [acceptConfigureInputs_of_off _ e c hoff', withInputs_setEntry, completePlain, complete_eq _ e .ok 0 0 0 0 hdev,
    State.setEntry_withReport, ctlReport_setEntry]
  congr 1
  exact ctlReport_congr htime (fun _ ha => by simp [CtlBody.axis?] at ha) ..

/-- Settles O51. -/
theorem configurationReplacesOrRefuses : Obligations.ConfigurationReplacesOrRefuses := by
  constructor
  · intro s a tag c checks h hfree
    refine ⟨fun hst => ?_, fun hst hall => ?_, fun n p hst hn hp hfirst => ?_⟩
    · refine completes_general (b := .configureAxis a c) h hfree rfl rfl (fun e => ?_) h.1 h.2
      exact (if_neg hst).trans (completePlain_taken h e _ _)
    · refine completes_general (b := .configureAxis a c) h hfree rfl rfl (fun e => ?_) h.1 h.2
      refine (if_pos hst).trans ?_
      rw [firstFailing_of_passes hall]
      exact complete_modAxis_taken h e _ rfl .ok 0 0 0 0 rfl rfl
    · refine completes_general (b := .configureAxis a c) h hfree rfl rfl (fun e => ?_) h.1 h.2
      refine (if_pos hst).trans ?_
      rw [firstFailing_of_fails hn hp hfirst]
      exact complete_taken h e _ .invalidConfig 0 0 _ 0
  · intro s tag c ok h hfree
    refine ⟨fun hbad => ?_, fun hok hout => ?_, fun hok hoff => ?_⟩
    · have hchecked : (CtlBody.configureInputs c).checked = .invalid 0x11 0 := if_neg fun hr => hbad ((inputsInRange_iff c).mp hr)
      obtain ⟨e, he⟩ := freeGeneral_of hfree
      refine ⟨e, freeGeneral_some he, ?_⟩
      refine (exec_instr tag (.configureInputs c) s).trans (congrArg _ ?_)
      refine deliverCommand_takes h (e := e) ?_ ?_ h.1 h.2
      · rw [hchecked]
        change generalChoice s = _
        rw [generalChoice, he]
      · rw [hchecked]
        exact completePlain_taken h e { tag := tag, body := .invalid 0x11 0 } .invalid
    · obtain ⟨a, ha⟩ := hout
      refine completes_general (b := .configureInputs c) h hfree ((inputsInRange_iff c).mpr hok) rfl (fun e => ?_) h.1 h.2
      refine (if_neg fun hall => ha ((allOff_iff _).mp hall a)).trans (completePlain_taken h e _ _)
    · have hdev : (withInputs c s).dev = .online := by rw [withInputs_eq]; exact h.1
      have hinterp : (withInputs c s).interp = .waiting := by rw [withInputs_eq]; exact h.2
      obtain ⟨e, he, hexec⟩ := completes_general (b := .configureInputs c) h hfree ((inputsInRange_iff c).mpr hok) rfl
        (fun e => acceptConfigureInputs_off c tag e h hoff) hdev hinterp
      refine ⟨e, _, he, hexec, ?_, fun l => ?_, fun heq => ?_, fun hne => ?_⟩
      · exact congrArg (fun u : State => u.withReport e _) (withInputs_rest c s)
      · rw [State.withReport_line, withInputs_line]
      · rw [State.withReport_slowClock, State.withReport_slowDue, withInputs_slowClock, withInputs_slowDue]
        exact ⟨if_pos heq, if_pos heq⟩
      · rw [State.withReport_slowClock, State.withReport_slowDue, withInputs_slowClock, withInputs_slowDue]
        exact ⟨if_neg hne, if_neg hne⟩

end Sys2Proof.Machine
end

section
/-! PROOFS. The control records that complete at their acceptance: O52, O56 and O58. -/

namespace Sys2Proof.Machine
open Sys2Proof

section
variable {s : State} (h : s.Ready) (e : Fin 24)
include h

/-- A completion after an update of the record's axis and its fetcher. -/
theorem complete_modAxis_modFetcher_taken (c : CtlRecord) {a : Axis} (ha : c.body.axis? = some a) (st : Status) (n k : Nat)
    (x y : Word) {f : AxisBlock → AxisBlock} (r : Fin 5) (g : Fetcher → Fetcher)
    (hcmd : (f (s.axis a)).cmdPos = (s.axis a).cmdPos) (henc : (f (s.axis a)).encPos = (s.axis a).encPos) :
    complete c e st n k x y (((s.setEntry e (.reserved .control)).modAxis a f).modFetcher r g) =
      ((s.modAxis a f).modFetcher r g).withReport e (ctlReport s (some a) c.tag c.body.kind st n k x y) := by
  rw [State.setEntry_modAxis, State.setEntry_modFetcher,
    complete_eq c e st n k x y (s := ((s.modAxis a f).modFetcher r g).setEntry e _) (Ready.not_failed h),
    State.setEntry_withReport, ctlReport_setEntry, ha, ctlReport_modFetcher, ctlReport_modAxis hcmd henc]

end

/-- The fault slot of an axis is not a general entry. -/
theorem faultSlot_ne_general {a : Axis} {e : Fin 24} (he : e.val < 16) : faultSlot a ≠ e := by
  rintro rfl
  revert he a
  decide

theorem faultWritten_setEntry {s : State} {a : Axis} {e : Fin 24} (he : e.val < 16) (v : Entry) :
    faultWritten (s.setEntry e v) a = faultWritten s a := by
  rw [faultWritten, faultWritten, State.setEntry_entry, if_neg (faultSlot_ne_general he)]

theorem faultWritten_iff (s : State) (a : Axis) : faultWritten s a = true ↔ s.entry (faultSlot a) = .free := by
  rw [faultWritten]
  cases s.entry (faultSlot a) <;> simp [Entry.isFree]

theorem Fetcher.setHead_head (f : Fetcher) : f.setHead.head = f.tail := rfl

/-- A version of `completes_general` in which the effect may use that the entry is a FREE general one. -/
theorem completes_general' {s u : State} {tag : Word} {b : CtlBody} {r : Report} (h : s.Ready) (hfree : ∃ e, s.FreeGeneral e)
    (hb : b.inRange = true) (hs : entryChoice b s = generalChoice s)
    (hacc : ∀ e, s.FreeGeneral e →
      accept { tag := tag, body := b } e (s.setEntry e (.reserved .control)) = u.withReport e r)
    (hdev : u.dev = .online) (hinterp : u.interp = .waiting) :
    ∃ e, s.FreeGeneral e ∧ exec (b.instr tag) s = .next (u.withReport e r) := by
  obtain ⟨e, he⟩ := freeGeneral_of hfree
  refine ⟨e, freeGeneral_some he, ?_⟩
  rw [exec_instr, deliverCommand_takes_general h he hb hs (hacc e (freeGeneral_some he)) hdev hinterp]

/-! ### ENABLE_AXIS -/

theorem AxisBlock.enabled_eq (x : AxisBlock) : x.enabled = { x with
    st := .idle, latches := Vector.replicate 6 Latch.clear, acc := 0, quadErrs := 0
    timer := some (50 * x.cfg.updatePeriod), en := true, lastRetired := none } := by
  rw [AxisBlock.enabled, ticksOf_eq]

theorem modAxis_enabled (s : State) (a : Axis) : s.modAxis a AxisBlock.enabled = s.modAxis a fun x => { x with
    st := .idle, latches := Vector.replicate 6 Latch.clear, acc := 0, quadErrs := 0
    timer := some (50 * x.cfg.updatePeriod), en := true, lastRetired := none } :=
  State.modAxis_congr s a (AxisBlock.enabled_eq _)

/-- In a quiesce with every axis OFF an enabled axis goes to OFF again at once. -/
theorem enable_in_quiesce {s : State} (a : Axis) (tag : Word) (hdev : s.dev = .quiescing) (hinterp : s.interp = .waiting)
    (hfree : ∃ e, s.FreeGeneral e) (hoff : ∀ b, (s.axis b).st = .off) :
    ∃ e, s.FreeGeneral e ∧ exec (.enableAxis a tag) s = .next
      (offIfAtRest ((s.modAxis a AxisBlock.enabled).withReport e (ctlReport s (some a) tag 0x12 .ok 0 0 0 0))) := by
  obtain ⟨e, he⟩ := freeGeneral_of hfree
  refine ⟨e, freeGeneral_some he, ?_⟩
  refine (exec_instr tag (.enableAxis a) s).trans (congrArg _ ?_)
  have hnot : ((s.setEntry e (.reserved .control)).modAxis a AxisBlock.enabled).dev ≠ .failed := by
    rw [State.modAxis_dev, State.setEntry_dev, hdev]
    decide
  have hjudge : judgeRecord { tag := tag, body := .enableAxis a } s =
      (s.modAxis a AxisBlock.enabled).withReport e (ctlReport s (some a) tag 0x12 .ok 0 0 0 0) := by
    have hchoice : entryChoice (.enableAxis a) s = .takes e := by
      change generalChoice s = _
      rw [generalChoice, he]
    rw [judgeRecord_takes hchoice, State.with_waiting hinterp]
    refine (if_pos (hoff a)).trans ?_
    rw [completePlain, complete_eq _ e .ok 0 0 0 0 hnot, State.setEntry_modAxis, State.setEntry_withReport, ctlReport_setEntry]
    exact congrArg _ (ctlReport_modAxis rfl rfl tag 0x12 .ok 0 0 0 0)
  rw [deliverCommand_of_takes (takesControl_of (.inr hdev) hinterp) rfl, hjudge]
  exact settle_of_waiting hinterp

/-! ### DISABLE_AXIS -/

theorem disableNow_taken {s : State} (h : s.Ready) (e : Fin 24) (a : Axis) (tag : Word) :
    disableNow { tag := tag, body := .disableAxis a } e a (s.setEntry e (.reserved .control)) =
      ((s.modAxis a AxisBlock.disabled).modFetcher (axisRing a) Fetcher.setHead).withReport e
        (ctlReport s (some a) tag 0x13 .ok (s.axis a).staging.length (s.fetcher (axisRing a)).tail (s.axis a).lastTag
          (BitVec.ofNat 32 (s.axis a).further)) := by
  rw [disableNow]
  refine (complete_modAxis_modFetcher_taken h e _ rfl .ok _ _ _ _ (axisRing a) Fetcher.setHead rfl rfl).trans ?_
  rw [State.modFetcher_fetcher_same]
  rfl

theorem AxisBlock.lastTag_eq (x : AxisBlock) : x.lastTag = ((x.staging.map AxisRecord.tag).getLast?).getD 0 := by
  rw [AxisBlock.lastTag, List.getLast?_map]

/-- Settles O52. -/
theorem enableAndDisableAxis : Obligations.EnableAndDisableAxis := by
  constructor
  · intro s a tag hinterp hfree
    refine ⟨fun hdev hst => ?_, fun hdev hst => ?_, fun hdev hoff => ?_⟩
    · have h : s.Ready := ⟨hdev, hinterp⟩
      rw [← modAxis_enabled]
      refine completes_general (b := .enableAxis a) h hfree rfl rfl (fun e => ?_) h.1 h.2
      exact (if_pos hst).trans (complete_modAxis_taken h e _ rfl .ok 0 0 0 0 rfl rfl)
    · have h : s.Ready := ⟨hdev, hinterp⟩
      refine completes_general (b := .enableAxis a) h hfree rfl rfl (fun e => ?_) h.1 h.2
      exact (if_neg hst).trans (completePlain_taken h e _ _)
    · obtain ⟨e, he, hexec⟩ := enable_in_quiesce a tag hdev hinterp hfree hoff
      generalize hu : (s.modAxis a AxisBlock.enabled).withReport e (ctlReport s (some a) tag 0x12 .ok 0 0 0 0) = u at hexec
      have hudev : u.dev = .quiescing := by rw [← hu, State.withReport_dev, State.modAxis_dev, hdev]
      have huinterp : u.interp = .waiting := by rw [← hu, State.withReport_interp, State.modAxis_interp, hinterp]
      have haxis : ∀ b, u.axis b = if b = a then (s.axis a).enabled else s.axis b := fun b => by
        rw [← hu, State.withReport_axis, State.modAxis_axis]
      have hrest : ∀ b, (u.axis b).st.moving = false := fun b => by
        rw [haxis]
        split
        next => rfl
        next => rw [hoff]; rfl
      have hoffIf := offIfAtRest_axis_of_rest (.inl hudev) hrest
      have ha : (offIfAtRest u).axis a = (s.axis a).enabled.toOff.disarm := by rw [hoffIf, haxis, if_pos rfl]
      have htoOff := AxisBlock.toOff_of_ne (x := (s.axis a).enabled) (by simp [AxisBlock.enabled])
      refine ⟨e, _, he, hexec, (offIfAtRest_seq u).rest.dev.trans hudev, (offIfAtRest_seq u).rest.interp.trans huinterp,
        fun b => ?_, ?_, ?_, ?_, ?_, ?_⟩
      · rw [hoffIf]
        exact AxisBlock.toOff_st _
      · rw [ha, htoOff]; rfl
      · rw [ha, htoOff]; rfl
      · rw [ha, htoOff]; rfl
      · rw [offIfAtRest_entry, ← hu, State.withReport_entry_same]
      · rw [offIfAtRest_fillQueue, ← hu, State.withReport_fillQueue, State.modAxis_fillQueue]
  · intro s a tag x refused h hfree
    refine ⟨fun hst => ?_, fun hst hslot => ?_, fun hidle hhalted => ?_⟩
    · refine completes_general' (b := .disableAxis a) h hfree rfl rfl (fun e he => ?_) h.1 h.2
      rw [← AxisBlock.lastTag_eq]
      refine Eq.trans ?_ (disableNow_taken h e a tag)
      change acceptDisableAxis _ e a _ = _
      rw [acceptDisableAxis, State.setEntry_axis]
      obtain hst | ⟨hst, hslot⟩ := hst
      · rw [hst]
      · rw [hst]
        exact if_pos ((faultWritten_setEntry he.1 _).trans ((faultWritten_iff s a).mpr hslot))
    · refine completes_general' (b := .disableAxis a) h hfree rfl rfl (fun e he => ?_) h.1 h.2
      refine Eq.trans ?_ (completePlain_taken h e { tag := tag, body := .disableAxis a } .reportPending)
      change acceptDisableAxis _ e a _ = _
      rw [acceptDisableAxis, State.setEntry_axis, hst]
      exact if_neg fun hw => hslot ((faultWritten_iff s a).mp ((faultWritten_setEntry he.1 _).symm.trans hw))
    · refine completes_general (b := .disableAxis a) h hfree rfl rfl (fun e => ?_) h.1 h.2
      refine Eq.trans ?_ (completePlain_taken h e { tag := tag, body := .disableAxis a } .notAllowed)
      change acceptDisableAxis _ e a _ = _
      rw [acceptDisableAxis, State.setEntry_axis]
      split
      next hst => exact absurd hst hidle
      next hst => exact absurd hst hhalted
      next => rfl

/-! ### CLEAR_FAULT -/

/-- Settles O56. -/
theorem clearFaultLeavesHalted : Obligations.ClearFaultLeavesHalted := by
  intro s a tag resume realign x f cleared report h hfree
  have hwritten : ∀ e, s.FreeGeneral e → (faultWritten (s.setEntry e (.reserved .control)) a = true ↔
      s.entry (faultSlot a) = .free) := fun e he => by rw [faultWritten_setEntry he.1, faultWritten_iff]
  refine ⟨fun hst => ?_, fun hst hslot => ?_, fun hst hslot hres => ?_, fun hst hslot hres => ?_⟩
  · refine completes_general (b := .clearFault a resume realign) h hfree rfl rfl (fun e => ?_) h.1 h.2
    exact (if_neg hst).trans (completePlain_taken h e _ _)
  · refine completes_general' (b := .clearFault a resume realign) h hfree rfl rfl (fun e he => ?_) h.1 h.2
    refine (if_pos hst).trans ((if_neg fun hw => hslot ((hwritten e he).mp hw)).trans ?_)
    exact completePlain_taken h e { tag := tag, body := .clearFault a resume realign } .reportPending
  · subst hres
    refine completes_general' (b := .clearFault a true realign) h hfree rfl rfl (fun e he => ?_) h.1 h.2
    refine (if_pos hst).trans ((if_pos ((hwritten e he).mpr hslot)).trans ?_)
    exact complete_modAxis_taken h e { tag := tag, body := .clearFault a true realign } rfl .ok 0 _ _ 0
      (f := AxisBlock.cleared realign) rfl rfl
  · subst hres
    refine completes_general' (b := .clearFault a false realign) h hfree rfl rfl (fun e he => ?_) h.1 h.2
    refine (if_pos hst).trans ((if_pos ((hwritten e he).mpr hslot)).trans ?_)
    refine (complete_modAxis_modFetcher_taken h e { tag := tag, body := .clearFault a false realign } rfl .ok 0 _ _ 0
      (f := AxisBlock.cleared realign) (axisRing a) Fetcher.setHead rfl rfl).trans ?_
    simp only [Bool.false_eq_true, if_false, State.modFetcher_fetcher_same]
    rfl

/-! ### SET_CAPTURE -/

/-- The number of a source, as the statements write it. -/
def sourceCode (src : Source) : BitVec 3 :=
  match src with
  | .index => 0#3
  | .home => 1#3
  | .trg k => BitVec.ofNat 3 (2 + k.val)

theorem sourceCode_eq (src : Source) : BitVec.ofNat 3 (sourceIx src).val = sourceCode src := by
  cases src <;> rfl

/-- The capture word of an arm, item by item (section 12.5). -/
theorem captureWord_reads {m : CaptureArm} (hrem : m.remaining.getD 0 ≤ 255) :
    (captureWord m).getLsbD 0 = m.armed ∧ (captureWord m).extractLsb' 4 3 = sourceCode m.source ∧
      (captureWord m).extractLsb' 8 8 = BitVec.ofNat 8 (m.remaining.getD 0) ∧
      (captureWord m).getLsbD 16 = m.remaining.isNone := by
  have harmed := bnat_le m.armed
  have hnone := bnat_le m.remaining.isNone
  have hsrc := (sourceIx m.source).isLt
  rw [← sourceCode_eq]
  refine ⟨getLsbD_ofNat_eq (by omega) ?_, extractLsb'_ofNat_eq (by omega) ?_, extractLsb'_ofNat_eq (by omega) ?_,
    getLsbD_ofNat_eq (by omega) ?_⟩
  all_goals omega

/-- Settles O58. -/
theorem setCaptureArmsAndDisarms : Obligations.SetCaptureArmsAndDisarms := by
  intro s a tag src count m report h hfree hcount
  have hrange : (CtlBody.setCaptureArm a src count).inRange = true := by
    cases count with
    | none => rfl
    | some n => simpa [CtlBody.inRange, optIn] using hcount n rfl
  refine ⟨fun hst => ?_, fun hst => ?_, ?_, fun hrem => ?_⟩
  · refine completes_general (b := .setCaptureArm a src count) h hfree hrange rfl (fun e => ?_) h.1 h.2
    exact (if_pos hst).trans (complete_taken h e _ .notAllowed 0 0 _ _)
  · refine completes_general (b := .setCaptureArm a src count) h hfree hrange rfl (fun e => ?_) h.1 h.2
    exact (if_neg hst).trans (complete_modAxis_taken h e _ rfl .ok 0 0 _ _ rfl rfl)
  · refine completes_general (b := .setCaptureDisarm a) h hfree rfl rfl (fun e => ?_) h.1 h.2
    exact complete_modAxis_taken h e { tag := tag, body := .setCaptureDisarm a } rfl .ok 0 0 _ _ rfl rfl
  · have hbound : m.remaining.getD 0 ≤ 255 := by
      cases hm : m.remaining with
      | none => decide
      | some n => exact hrem n hm
    exact captureWord_reads hbound

end Sys2Proof.Machine
end

section
/-! PROOFS. The reports an operation leaves in the completion buffer, and what a halt, a break and a departure leave. -/

namespace Sys2Proof.Machine
open Sys2Proof

/-! ### Lists of reports -/

/-- What a list of fills leaves in an entry. -/
def lastReport (l : List (Fin 24 × Report)) (e : Fin 24) (v : Entry) : Entry :=
  l.foldl (fun v p => if p.1 = e then .filled p.2 else v) v

/-- From `s` to `t` the entries of a list were filled with their reports, in that order, and nothing else happened in the
completion buffer. -/
structure Reports (s t : State) (l : List (Fin 24 × Report)) : Prop where
  queue : t.fillQueue = s.fillQueue ++ l.map Prod.fst
  entry : ∀ e, t.entry e = lastReport l e (s.entry e)

theorem lastReport_of_not_mem {l : List (Fin 24 × Report)} {e : Fin 24} (h : ∀ p ∈ l, p.1 ≠ e) (v : Entry) :
    lastReport l e v = v := by
  induction l generalizing v with
  | nil => rfl
  | cons p l ih =>
    rw [lastReport, List.foldl_cons, if_neg (h p List.mem_cons_self)]
    exact ih (fun q hq => h q (List.mem_cons_of_mem _ hq)) v

theorem lastReport_append (l k : List (Fin 24 × Report)) (e : Fin 24) (v : Entry) :
    lastReport (l ++ k) e v = lastReport k e (lastReport l e v) := List.foldl_append ..

/-- An entry that is filled once holds its report. -/
theorem lastReport_of_split {l k : List (Fin 24 × Report)} {e : Fin 24} {r : Report} (hk : ∀ p ∈ k, p.1 ≠ e) (v : Entry) :
    lastReport (l ++ (e, r) :: k) e v = .filled r := by
  rw [lastReport_append, lastReport, List.foldl_cons, if_pos rfl]
  exact lastReport_of_not_mem hk _

theorem Reports.of_eq {s t : State} (hq : t.fillQueue = s.fillQueue) (he : t.entries = s.entries) : Reports s t [] :=
  ⟨by rw [hq, List.map_nil, List.append_nil], fun e => by rw [State.entry, he]; rfl⟩

theorem Reports.refl (s : State) : Reports s s [] := .of_eq rfl rfl

theorem Reports.trans {s t u : State} {l k : List (Fin 24 × Report)} (h : Reports s t l) (h' : Reports t u k) :
    Reports s u (l ++ k) :=
  ⟨by rw [h'.queue, h.queue, List.map_append, List.append_assoc], fun e => by rw [h'.entry, h.entry, lastReport_append]⟩

theorem Reports.of_list {s t : State} {l k : List (Fin 24 × Report)} (h : Reports s t l) (hk : l = k) : Reports s t k := hk ▸ h

/-- A step that leaves the buffer as it is, before one that fills entries. -/
theorem Reports.after {s t u : State} {l : List (Fin 24 × Report)} (h : Reports t u l) (hq : t.fillQueue = s.fillQueue)
    (he : t.entries = s.entries) : Reports s u l := (Reports.of_eq hq he).trans h

/-- A step that leaves the buffer as it is, after one that fills entries. -/
theorem Reports.then {s t u : State} {l : List (Fin 24 × Report)} (h : Reports s t l) (hq : u.fillQueue = t.fillQueue)
    (he : u.entries = t.entries) : Reports s u l :=
  (h.trans (.of_eq hq he)).of_list (List.append_nil l)

theorem Reports.withReport (s : State) (e : Fin 24) (r : Report) : Reports s (s.withReport e r) [(e, r)] :=
  ⟨rfl, fun k => by
    rw [State.withReport_entry]
    by_cases hk : k = e
    · rw [if_pos hk, hk]
      exact (if_pos rfl).symm
    · rw [if_neg hk]
      exact (if_neg (Ne.symm hk)).symm⟩

theorem Reports.fill {s : State} (h : s.dev ≠ .failed) (e : Fin 24) (r : Report) : Reports s (fill e r s) [(e, r)] := by
  rw [fill_eq_withReport e r h]
  exact .withReport s e r

/-- An entry that none of the reports fills is as it was. -/
theorem Reports.entry_of_not_mem {s t : State} {l : List (Fin 24 × Report)} (h : Reports s t l) {e : Fin 24}
    (he : ∀ p ∈ l, p.1 ≠ e) : t.entry e = s.entry e := by
  rw [h.entry, lastReport_of_not_mem he]

/-- An entry that one report fills, and none after it, holds that report. -/
theorem Reports.entry_of_split {s t : State} {l k : List (Fin 24 × Report)} {e : Fin 24} {r : Report}
    (h : Reports s t (l ++ (e, r) :: k)) (hk : ∀ p ∈ k, p.1 ≠ e) : t.entry e = .filled r := by
  rw [h.entry, lastReport_of_split hk]

/-- The last report of a list stands in its entry. -/
theorem Reports.entry_last {s t : State} {l : List (Fin 24 × Report)} {e : Fin 24} {r : Report}
    (h : Reports s t (l ++ [(e, r)])) : t.entry e = .filled r := h.entry_of_split (by simp)

/-! ### Retirement -/

/-- The SEGMENT report of the active segment, if any. -/
def activeReport (s : State) (a : Axis) (st : Status) (c : Option FaultCause) (w : Segment → Word × Word) :
    List (Fin 24 × Report) :=
  match (s.axis a).active with
  | none => []
  | some g => [(g.entry, axisReport s a .segment st c g.record.id 0 0 (w g).1 (w g).2)]

/-- The SEGMENT report of the held record, if any. -/
def heldReport (s : State) (a : Axis) (st : Status) (c : Option FaultCause) : List (Fin 24 × Report) :=
  match (s.axis a).held with
  | none => []
  | some h => [(h.entry, axisReport s a .segment st c h.record.id 0 0 0 0)]

/-- A report of an axis shows its positions and the time, and nothing else of the state. -/
theorem axisReport_congr {s t : State} {a : Axis} (htime : t.time = s.time) (hcmd : (t.axis a).cmdPos = (s.axis a).cmdPos)
    (henc : (t.axis a).encPos = (s.axis a).encPos) (k : ReportKind) (st : Status) (c : Option FaultCause) (id : RecId) (n m : Nat)
    (x y : Word) : axisReport t a k st c id n m x y = axisReport s a k st c id n m x y := by
  rw [axisReport, axisReport, htime, hcmd, henc]

theorem reportSegment_reports {s : State} (hdev : s.dev ≠ .failed) (a : Axis) (r : AxisRecord) (e : Fin 24) {st : Status}
    (hst : st ≠ .ok) (c : Option FaultCause) (w : Word × Word) :
    Reports s (reportSegment a r e st c w s) [(e, axisReport s a .segment st c r.id 0 0 w.1 w.2)] := by
  rw [reportSegment_fills a e c w hdev (by simp [hst])]
  exact .withReport ..

theorem retireActive_reports {s : State} (hdev : s.dev ≠ .failed) (a : Axis) {st : Status} (hst : st ≠ .ok)
    (c : Option FaultCause) (w : Segment → Word × Word) :
    Reports s (retireActive a st c w s) (activeReport s a st c w) := by
  rw [retireActive, activeReport]
  cases (s.axis a).active with
  | none => exact .refl s
  | some g => exact (reportSegment_reports hdev a g.record g.entry hst c (w g)).then rfl rfl

theorem retireHeld_reports {s : State} (hdev : s.dev ≠ .failed) (a : Axis) {st : Status} (hst : st ≠ .ok)
    (c : Option FaultCause) : Reports s (retireHeld a st c s) (heldReport s a st c) := by
  rw [retireHeld, heldReport]
  cases (s.axis a).held with
  | none => exact .refl s
  | some h => exact (reportSegment_reports hdev a h.record h.entry hst c (0, 0)).then rfl rfl

/-- A held record's report depends on the record, the positions and the time. -/
theorem heldReport_congr {s t : State} {a : Axis} (htime : t.time = s.time) (hheld : (t.axis a).held = (s.axis a).held)
    (hcmd : (t.axis a).cmdPos = (s.axis a).cmdPos) (henc : (t.axis a).encPos = (s.axis a).encPos) (st : Status)
    (c : Option FaultCause) : heldReport t a st c = heldReport s a st c := by
  unfold heldReport
  simp only [hheld, axisReport_congr htime hcmd henc]

theorem retireCurrent_reports {s : State} (hdev : s.dev ≠ .failed) (a : Axis) {st : Status} (hst : st ≠ .ok)
    (c : Option FaultCause) :
    Reports s (retireCurrent a st c s) (activeReport s a st c Segment.words ++ heldReport s a st c) := by
  have hrest := (retireActive_seq a st c Segment.words s).rest
  have haxis := retireActive_axis a st c Segment.words s a
  obtain ⟨lr, hretired⟩ := (s.axis a).retired_eq
  rw [if_pos rfl, hretired] at haxis
  have hheld := retireHeld_reports (s := retireActive a st c Segment.words s) (by rwa [hrest.dev]) a hst c
  rw [heldReport_congr hrest.time (by rw [haxis]) (by rw [haxis]) (by rw [haxis])] at hheld
  exact (retireActive_reports hdev a hst c _).trans hheld

/-! ### A halt -/

/-- The HALTED completion of a pending stop request, if any. -/
def requestReport (s : State) (a : Axis) (c : FaultCause) : List (Fin 24 × Report) :=
  match (s.axis a).stopReq with
  | none => []
  | some q => [(q.entry, controlReport s .control .halted (some c) q.id (some a) 0 (s.fetcher (axisRing a)).head 0 q.superseded)]

/-- The FAULT report of a halt. -/
def faultReport (s : State) (a : Axis) (c : FaultCause) (id : RecId) : Report :=
  axisReport s a .fault .halted (some c) id (s.axis a).staging.length (s.fetcher (axisRing a)).head (s.axis a).lastTag 0

/-- The reports of a halt, in the order of R59. -/
def haltReports (s : State) (a : Axis) (c : FaultCause) (id : RecId) : List (Fin 24 × Report) :=
  activeReport s a .halted (some c) Segment.words ++ heldReport s a .halted (some c) ++ requestReport s a c
    ++ [(faultSlot a, faultReport s a c id)]

theorem failStopReq_reports {s : State} (hdev : s.dev ≠ .failed) (a : Axis) (c : FaultCause) :
    Reports s (failStopReq a c s) (requestReport s a c) := by
  rw [failStopReq, requestReport]
  cases (s.axis a).stopReq with
  | none => exact .refl s
  | some q => exact (Reports.fill hdev ..).then rfl rfl

/-- The reports of a halt depend on the axis, its fetcher's head and the time. -/
theorem haltReports_congr {s t : State} {a : Axis} (htime : t.time = s.time) (haxis : t.axis a = s.axis a)
    (hhead : (t.fetcher (axisRing a)).head = (s.fetcher (axisRing a)).head) (c : FaultCause) (id : RecId) :
    haltReports t a c id = haltReports s a c id := by
  simp only [haltReports, activeReport, heldReport, requestReport, faultReport, axisReport, controlReport, Option.map_some,
    Option.getD_some, htime, haxis, hhead]

theorem Fetcher.cancel_head (f : Fetcher) : f.cancel.head = f.head := rfl

/-- What a halt leaves in the buffer (R59, R60). -/
theorem haltCore_reports {s : State} (hdev : s.dev ≠ .failed) (a : Axis) (c : FaultCause) (id : RecId) :
    Reports s (haltCore a c id s) (haltReports s a c id) := by
  obtain ⟨lr, hboth⟩ := (s.axis a).still.bothRetired_eq
  -- the axis at rest, its records retired, its request completed
  generalize hs1 : s.modAxis a AxisBlock.still = s1
  have h1 : s1.axis a = (s.axis a).still := by rw [← hs1, State.modAxis_axis_same]
  have hdev1 : s1.dev ≠ .failed := by rwa [← hs1]
  have hretire := retireCurrent_reports hdev1 a (st := .halted) (by decide) (some c)
  generalize hs2 : retireCurrent a .halted (some c) s1 = s2 at hretire
  have hrest2 : SameRest s1 s2 := hs2 ▸ (retireCurrent_seq a .halted (some c) s1).rest
  have hfetch2 : s2.fetchers = s.fetchers := by rw [← hs2, retireCurrent_fetchers, ← hs1]; rfl
  have h2 : s2.axis a = { (s.axis a).still with active := none, held := none, lastRetired := lr } := by
    rw [← hs2, retireCurrent_axis, if_pos rfl, h1, hboth]
  have hrequest := failStopReq_reports (s := s2) (by rwa [hrest2.dev]) a c
  generalize hs3 : failStopReq a c s2 = s3 at hrequest
  have hrest3 : SameRest s2 s3 := hs3 ▸ failStopReq_rest a c s2
  have hfetch3 : s3.fetchers = s.fetchers := by rw [← hs3, failStopReq_fetchers, hfetch2]
  have h3 : s3.axis a = { s2.axis a with stopReq := none } := by rw [← hs3, failStopReq_axis, if_pos rfl]
  -- the axis HALTED, its queue flushed and its fetch cancelled
  generalize hs4 : (s3.modAxis a fun x =>
    { x with staging := [], cause := some c, outside := x.outsideWindow, st := .halted }).modFetcher (axisRing a) Fetcher.cancel = s4
  have hhalt : haltCore a c id s = fill (faultSlot a) (axisReport s4 a .fault .halted (some c) id
      (s3.axis a).staging.length (s4.fetcher (axisRing a)).head (s3.axis a).lastTag 0) s4 := by
    rw [← hs4, ← hs3, ← hs2, ← hs1, haltCore]
  have htime : s1.time = s.time := by rw [← hs1]; rfl
  have htime4 : s4.time = s.time := by rw [← hs4, ← htime, ← hrest2.time, ← hrest3.time]; rfl
  have hdev4 : s4.dev ≠ .failed := by
    rw [← hs4, State.modFetcher_dev, State.modAxis_dev, hrest3.dev, hrest2.dev]
    exact hdev1
  have hhead : (s4.fetcher (axisRing a)).head = (s.fetcher (axisRing a)).head := by
    rw [← hs4, State.modFetcher_fetcher_same, Fetcher.cancel_head, State.modAxis_fetcher, State.fetcher, hfetch3]
    rfl
  have h4 : (s4.axis a).cmdPos = (s.axis a).cmdPos ∧ (s4.axis a).encPos = (s.axis a).encPos := by
    rw [← hs4, State.modFetcher_axis, State.modAxis_axis_same, h3, h2]
    exact ⟨rfl, rfl⟩
  have hstaging : (s3.axis a).staging = (s.axis a).staging := by rw [h3, h2]; rfl
  have hfault : axisReport s4 a .fault .halted (some c) id (s3.axis a).staging.length (s4.fetcher (axisRing a)).head
      (s3.axis a).lastTag 0 = faultReport s a c id := by
    rw [axisReport_congr htime4 h4.1 h4.2, hhead, AxisBlock.lastTag, hstaging]
    rfl
  have hactive : activeReport s1 a .halted (some c) Segment.words = activeReport s a .halted (some c) Segment.words := by
    simp only [activeReport, axisReport, h1, htime, AxisBlock.still]
  have hheld : heldReport s1 a .halted (some c) = heldReport s a .halted (some c) :=
    heldReport_congr htime (by rw [h1]; rfl) (by rw [h1]; rfl) (by rw [h1]; rfl) ..
  have hreq : requestReport s2 a c = requestReport s a c := by
    simp only [requestReport, controlReport, h2, hrest2.time, htime, State.fetcher, hfetch2, Option.map_some, Option.getD_some,
      AxisBlock.still]
  rw [hactive, hheld] at hretire
  rw [hreq] at hrequest
  rw [hhalt, hfault]
  have hfirst : Reports s s3 (activeReport s a .halted (some c) Segment.words ++ heldReport s a .halted (some c)
      ++ requestReport s a c) := (hretire.after (by rw [← hs1]; rfl) (by rw [← hs1]; rfl)).trans hrequest
  exact (hfirst.then (by rw [← hs4]; rfl) (by rw [← hs4]; rfl)).trans (Reports.fill hdev4 ..)

theorem AxisBlock.haltedBy_eq (c : FaultCause) (x : AxisBlock) : ∃ lr, x.haltedBy c = { x with
    rate := 0, frac := 0, periodSteps := 0, schedule := [], setupMark := false, active := none, held := none, lastRetired := lr
    stopReq := none, staging := [], cause := some c, outside := x.outsideWindow, st := .halted } := by
  obtain ⟨lr, hboth⟩ := x.still.bothRetired_eq
  exact ⟨lr, by rw [AxisBlock.haltedBy, hboth]; rfl⟩

theorem haltCore_groups (a : Axis) (c : FaultCause) (id : RecId) (s : State) : (haltCore a c id s).groups = s.groups := by
  refine Vector.ext fun i hi => ?_
  exact haltCore_group a c id s ⟨i, hi⟩

end Sys2Proof.Machine
end

section
/-! PROOFS. What the break of a group and the halt of an axis out of a gathering leave (R76, R77). -/

namespace Sys2Proof.Machine
open Sys2Proof

/-! ### The members of a set -/

theorem mem_setList {m : AxisSet} {b : Axis} : b ∈ setList m ↔ setHas m b = true := by
  have hmem : ∀ a : Axis, a ∈ allAxes := by decide
  simp [setList, hmem]

theorem nodup_setList (m : AxisSet) : (setList m).Nodup := List.Nodup.filter _ (by decide)

theorem setHas_setErase (m : AxisSet) (a b : Axis) : setHas (setErase m a) b = (setHas m b && decide (b ≠ a)) := by
  have hbit : ∀ (m : BitVec 4) (a b : Fin 4),
      (m &&& ~~~(1#4 <<< a.val)).getLsbD b.val = (m.getLsbD b.val && decide (b ≠ a)) := by decide
  exact hbit m a b

/-! ### The halts of a break -/

/-- An arrived member after a break (R77). -/
def AxisBlock.memberHalted (x : AxisBlock) : AxisBlock :=
  match x.held with
  | none => x
  | some _ => x.haltedBy .syncBroken

/-- The reports of a member that a break halts. -/
def memberReports (s : State) (b : Axis) : List (Fin 24 × Report) :=
  match (s.axis b).held with
  | none => []
  | some h => haltReports s b .syncBroken h.record.id

theorem haltMember_axis (a : Axis) (s : State) (b : Axis) :
    (haltMember a s).axis b = if b = a then (s.axis a).memberHalted else s.axis b := by
  rw [haltMember, AxisBlock.memberHalted]
  cases (s.axis a).held with
  | none => exact ite_self_axis s a b
  | some h => exact haltCore_axis ..

theorem haltMember_groups (a : Axis) (s : State) : (haltMember a s).groups = s.groups := by
  unfold haltMember
  split
  next => rfl
  next => exact haltCore_groups ..

theorem haltMember_reports {s : State} (hdev : s.dev ≠ .failed) (a : Axis) :
    Reports s (haltMember a s) (memberReports s a) := by
  rw [haltMember, memberReports]
  cases (s.axis a).held with
  | none => exact .refl s
  | some h => exact haltCore_reports hdev ..

theorem axisRing_injective {a b : Axis} (h : axisRing a = axisRing b) : a = b := by
  revert a b
  decide

/-- A halt leaves the fetchers of the other axes. -/
theorem haltMember_fetcher {a b : Axis} (h : b ≠ a) (s : State) :
    (haltMember a s).fetcher (axisRing b) = s.fetcher (axisRing b) := by
  unfold haltMember
  split
  next => rfl
  next =>
    rw [State.fetcher, haltCore_fetchers]
    exact (State.modFetcher_fetcher ..).trans (if_neg fun hring => h (axisRing_injective hring))

/-- The reports of a member depend on its axis, its fetcher's head and the time. -/
theorem memberReports_congr {s t : State} {b : Axis} (htime : t.time = s.time) (haxis : t.axis b = s.axis b)
    (hfetcher : t.fetcher (axisRing b) = s.fetcher (axisRing b)) : memberReports t b = memberReports s b := by
  rw [memberReports, memberReports, haxis]
  cases (s.axis b).held with
  | none => rfl
  | some h => exact haltReports_congr htime haxis (by rw [hfetcher]) ..

/-- The halts of the members, one after the other: their reports follow in that order. -/
theorem haltMembers_reports (l : List Axis) (hn : l.Nodup) {s : State} (hdev : s.dev ≠ .failed) :
    Reports s (l.foldl (fun t b => haltMember b t) s) (l.flatMap (memberReports s)) := by
  induction l generalizing s with
  | nil => exact .refl s
  | cons a l ih =>
    obtain ⟨ha, hl⟩ := List.nodup_cons.mp hn
    have hrest := (haltMember_seq a s).rest
    have hcongr : ∀ b ∈ l, memberReports (haltMember a s) b = memberReports s b := fun b hb => by
      have hne : b ≠ a := fun h => ha (h ▸ hb)
      exact memberReports_congr hrest.time (by rw [haltMember_axis, if_neg hne]) (haltMember_fetcher hne s)
    have htail := ih hl (s := haltMember a s) (by rwa [hrest.dev])
    rw [List.flatMap_congr hcongr] at htail
    exact (haltMember_reports hdev a).trans htail

theorem haltMembers_groups (l : List Axis) (s : State) : (l.foldl (fun t b => haltMember b t) s).groups = s.groups := by
  induction l generalizing s with
  | nil => rfl
  | cons a l ih => rw [List.foldl_cons, ih, haltMember_groups]

/-! ### The break of a group -/

/-- A group after it broke. -/
def Group.broke (x : Group) : Group := { x with st := .broken, arrived := 0, count := 0 }

/-- The members' halts take place in some order, from the state in which the group is broken. -/
theorem breakGroup_eq {s : State} (hdev : s.dev ≠ .quiescing) (g : GroupIx) (m : AxisSet) :
    ∃ (order : List Axis) (n : Nat), order.Perm (setList m) ∧
      breakGroup g m s = order.foldl (fun t b => haltMember b t) { s.modGroup g Group.broke with freeCount := n } :=
  ⟨_, _, arrange_perm s.freeCount (setList m).length (setList m) le_rfl, if_neg hdev⟩

theorem breakGroup_group {s : State} (hdev : s.dev ≠ .quiescing) (g : GroupIx) (m : AxisSet) (k : GroupIx) :
    (breakGroup g m s).group k = if k = g then (s.group g).broke else s.group k := by
  obtain ⟨order, n, -, hbreak⟩ := breakGroup_eq hdev g m
  rw [hbreak, State.group, haltMembers_groups]
  exact State.modGroup_group ..

theorem breakGroup_axis {s : State} (hdev : s.dev ≠ .quiescing) (g : GroupIx) (m : AxisSet) (b : Axis) :
    (breakGroup g m s).axis b = if setHas m b = true then (s.axis b).memberHalted else s.axis b := by
  obtain ⟨order, n, hperm, hbreak⟩ := breakGroup_eq hdev g m
  have haxes := (foldl_axis (I := fun _ => True) (f := haltMember) (F := fun _ x => x.memberHalted) (fun _ _ _ => trivial)
    (fun a s b _ => haltMember_axis a s b) order (hperm.nodup_iff.mpr (nodup_setList m))
    { s.modGroup g Group.broke with freeCount := n } trivial).2 b
  rw [hbreak, haxes]
  simp only [hperm.mem_iff, mem_setList]
  rfl

theorem breakGroup_reports {s : State} (hdev : s.dev ≠ .quiescing) (hfail : s.dev ≠ .failed) (g : GroupIx) (m : AxisSet) :
    ∃ order : List Axis, order.Perm (setList m) ∧ Reports s (breakGroup g m s) (order.flatMap (memberReports s)) := by
  obtain ⟨order, n, hperm, hbreak⟩ := breakGroup_eq hdev g m
  refine ⟨order, hperm, ?_⟩
  have hreports := haltMembers_reports order (hperm.nodup_iff.mpr (nodup_setList m))
    (s := { s.modGroup g Group.broke with freeCount := n }) hfail
  rw [hbreak]
  exact hreports.after rfl rfl

/-- A member that holds a record halts. -/
theorem AxisBlock.memberHalted_of_held {x : AxisBlock} {h : Held} (hh : x.held = some h) :
    x.memberHalted = x.haltedBy .syncBroken := by
  rw [AxisBlock.memberHalted, hh]

/-- The FAULT report is among the reports of a member that holds a record. -/
theorem faultSlot_mem_memberReports {s : State} {b : Axis} {h : Held} (hh : (s.axis b).held = some h) :
    faultSlot b ∈ (memberReports s b).map Prod.fst := by
  rw [memberReports, hh]
  simp [haltReports]

/-- Without an active segment and a stop request the reports of a member fill its held record's entry and its fault slot. -/
theorem memberReports_entries {s : State} {b : Axis} {k : Held} (hk : (s.axis b).held = some k)
    (hactive : (s.axis b).active = none) (hreq : (s.axis b).stopReq = none) {p : Fin 24 × Report} (hp : p ∈ memberReports s b) :
    p.1 = k.entry ∨ p.1 = faultSlot b := by
  simp only [memberReports, haltReports, activeReport, heldReport, requestReport, hk, hactive, hreq, List.append_nil,
    List.nil_append, List.mem_append, List.mem_cons, List.not_mem_nil, or_false] at hp
  obtain rfl | rfl := hp
  · exact .inl rfl
  · exact .inr rfl

/-! ### The halt of an axis out of a gathering -/

theorem faultSlot_injective {a b : Axis} (h : faultSlot a = faultSlot b) : a = b := by
  revert a b
  decide

theorem haltAxis_of_gathers {s : State} {a : Axis} {h : Held} (hg : s.Gathers a h) (c : FaultCause) (id : RecId) :
    haltAxis a c id s = breakGroup h.group (setErase (s.group h.group).arrived a) (haltCore a c id s) := by
  have hwaits : (s.axis a).waitsOn = some h.group := by
    rw [AxisBlock.waitsOn, if_pos hg.state, hg.holds]
    rfl
  rw [haltAxis, hwaits, depart, haltCore_group]
  exact if_pos hg.group

/-- The two reports of an axis that halts out of WAIT_SYNC. -/
theorem haltReports_of_gathers {s : State} {a : Axis} {h : Held} (hg : s.Gathers a h) (c : FaultCause) (id : RecId) :
    haltReports s a c id = [(h.entry, axisReport s a .segment .halted (some c) h.record.id 0 0 0 0),
      (faultSlot a, faultReport s a c id)] := by
  simp only [haltReports, activeReport, heldReport, requestReport, hg.record, hg.holds, hg.request, List.nil_append,
    List.append_nil, List.cons_append]

/-- What the reports of the other members do not fill. -/
theorem others_reports_ne {s u : State} {a : Axis} {h : Held} (hg : s.Gathers a h)
    (haxis : ∀ b, b ≠ a → u.axis b = s.axis b) {order : List Axis}
    (hperm : order.Perm (setList (setErase (s.group h.group).arrived a))) {p : Fin 24 × Report}
    (hp : p ∈ order.flatMap (memberReports u)) : p.1 ≠ h.entry ∧ p.1 ≠ faultSlot a := by
  obtain ⟨b, hb, hp⟩ := List.mem_flatMap.mp hp
  have hmem := mem_setList.mp (hperm.mem_iff.mp hb)
  rw [setHas_setErase, Bool.and_eq_true, decide_eq_true_eq] at hmem
  obtain ⟨harrived, hne⟩ := hmem
  obtain ⟨hreq, hactive, k, hk, hgeneral, hentry⟩ := hg.others b hne harrived
  rw [← haxis b hne] at hreq hactive hk
  obtain hp | hp := memberReports_entries hk hactive hreq hp
  · rw [hp]
    exact ⟨hentry, (faultSlot_ne_general hgeneral).symm⟩
  · rw [hp]
    exact ⟨faultSlot_ne_general hg.entry, fun heq => hne (faultSlot_injective heq)⟩

/-- The halt of an axis out of WAIT_SYNC on a gathering group (R59, R76, R77). -/
theorem haltAxis_gathering {s : State} {a : Axis} {h : Held} (hdev : s.dev ≠ .quiescing) (hfail : s.dev ≠ .failed)
    (hg : s.Gathers a h) (c : FaultCause) : HaltedFromGathering s (haltAxis a c h.record.id s) a h c := by
  rw [haltAxis_of_gathers hg]
  have hcore := haltCore_reports hfail a c h.record.id
  have haxis := haltCore_axis a c h.record.id s
  have hgroup := haltCore_group a c h.record.id s
  have hudev : (haltCore a c h.record.id s).dev = s.dev := (haltCore_rest a c h.record.id s).dev
  rw [haltReports_of_gathers hg] at hcore
  generalize haltCore a c h.record.id s = u at hcore haxis hgroup hudev ⊢
  have hother : ∀ b, b ≠ a → u.axis b = s.axis b := fun b hb => (haxis b).trans (if_neg hb)
  have hquiesce : u.dev ≠ .quiescing := by rwa [hudev]
  obtain ⟨order, hperm, hbreak⟩ := breakGroup_reports hquiesce (by rwa [hudev]) h.group
    (setErase (s.group h.group).arrived a)
  have hbaxis := breakGroup_axis hquiesce h.group (setErase (s.group h.group).arrived a)
  have hbgroup := breakGroup_group hquiesce h.group (setErase (s.group h.group).arrived a)
  generalize breakGroup h.group (setErase (s.group h.group).arrived a) u = t at hbreak hbaxis hbgroup ⊢
  have hreports := hcore.trans hbreak
  have hself : t.axis a = (s.axis a).haltedBy c := by
    rw [hbaxis, haxis, if_pos rfl, if_neg (by simp [setHas_setErase])]
  obtain ⟨lr, hhalted⟩ := (s.axis a).haltedBy_eq c
  rw [hhalted] at hself
  have hfill : ∀ p ∈ order.flatMap (memberReports u), p.1 ≠ h.entry ∧ p.1 ≠ faultSlot a :=
    fun p hp => others_reports_ne hg hother hperm hp
  have hmember : ∀ b, b ≠ a → setHas (s.group h.group).arrived b = true → setHas (setErase (s.group h.group).arrived a) b = true :=
    fun b hb harrived => by simp [setHas_setErase, harrived, hb]
  refine {
    state := by rw [hself], reason := by rw [hself], record := by rw [hself]; exact ⟨rfl, rfl, rfl⟩
    positions := by rw [hself]; exact ⟨rfl, rfl⟩
    segment := hreports.entry_of_split (l := []) (k := (faultSlot a, faultReport s a c h.record.id) :: _) ?_
    fault := ⟨faultReport s a c h.record.id, hreports.entry_of_split (l := [_]) (k := _) fun p hp => (hfill p hp).2, rfl, rfl, rfl, rfl⟩
    order := ⟨(order.flatMap (memberReports u)).map Prod.fst, ?_, fun b hb harrived => ?_⟩
    group := by rw [hbgroup, if_pos rfl, hgroup]; rfl
    groups := fun k hk => by rw [hbgroup, if_neg hk, hgroup]
    members := fun b hb harrived => ?_
    rest := fun b hb harrived => ?_ }
  · rintro p hp
    obtain rfl | hp := List.mem_cons.mp hp
    · exact faultSlot_ne_general hg.entry
    · exact (hfill p hp).1
  · rw [hreports.queue, List.map_append, List.append_assoc]
    rfl
  · obtain ⟨-, -, k, hk, -⟩ := hg.others b hb harrived
    rw [← hother b hb] at hk
    rw [List.map_flatMap]
    exact List.mem_flatMap.mpr ⟨b, hperm.mem_iff.mpr (mem_setList.mpr (hmember b hb harrived)), faultSlot_mem_memberReports hk⟩
  · obtain ⟨-, -, k, hk, -⟩ := hg.others b hb harrived
    obtain ⟨lr', hhalted'⟩ := (s.axis b).haltedBy_eq .syncBroken
    rw [hbaxis, if_pos (hmember b hb harrived), hother b hb, AxisBlock.memberHalted_of_held hk, hhalted']
    exact ⟨rfl, rfl, rfl, rfl⟩
  · rw [hbaxis, if_neg (by simp [setHas_setErase, harrived]), hother b hb]

/-- A halt out of a gathering, from a state that agrees with another on what it depends on. -/
theorem HaltedFromGathering.of_pre {s u t : State} {a : Axis} {h : Held} {c : FaultCause} (k : HaltedFromGathering u t a h c)
    (haxis : ∀ b, b ≠ a → u.axis b = s.axis b) (hcmd : (u.axis a).cmdPos = (s.axis a).cmdPos)
    (henc : (u.axis a).encPos = (s.axis a).encPos) (hstaging : (u.axis a).staging = (s.axis a).staging)
    (hgroups : u.groups = s.groups) (htime : u.time = s.time) (hqueue : u.fillQueue = s.fillQueue) :
    HaltedFromGathering s t a h c := by
  have hgroup : ∀ g, u.group g = s.group g := fun g => by rw [State.group, hgroups]; rfl
  obtain ⟨hst, hreason, hrecord, hpos, hsegment, hfault, horder, hg, hgs, hmembers, hrest⟩ := k
  rw [hcmd, henc] at hpos hsegment
  rw [htime] at hsegment
  rw [hstaging] at hfault
  rw [hqueue] at horder
  simp only [hgroup] at horder hg hgs hmembers hrest
  exact ⟨hst, hreason, hrecord, hpos, hsegment, hfault, horder, hg, hgs,  hmembers,
    fun b hb harrived => (hrest b hb harrived).trans (haxis b hb)⟩

/-- What a state must keep for an axis to gather in it still. -/
theorem State.Gathers.of_pre {s u : State} {a : Axis} {h : Held} (k : s.Gathers a h)
    (haxis : ∀ b, b ≠ a → u.axis b = s.axis b) (hst : (u.axis a).st = (s.axis a).st) (hheld : (u.axis a).held = (s.axis a).held)
    (hactive : (u.axis a).active = (s.axis a).active) (hreq : (u.axis a).stopReq = (s.axis a).stopReq)
    (hgroups : u.groups = s.groups) : u.Gathers a h := by
  have hgroup : ∀ g, u.group g = s.group g := fun g => by rw [State.group, hgroups]; rfl
  refine ⟨hst.trans k.state, hheld.trans k.holds, hactive.trans k.record, hreq.trans k.request, k.entry,
    by rw [hgroup]; exact k.group, fun b hb harrived => ?_⟩
  rw [haxis b hb]
  exact k.others b hb (by rwa [hgroup] at harrived)

/-- The id with which a gathering axis halts is that of its held record. -/
theorem State.Gathers.faultId {s : State} {a : Axis} {h : Held} (k : s.Gathers a h) : (s.axis a).faultId = h.record.id := by
  rw [AxisBlock.faultId, k.record, k.holds]

theorem haltCurrent_gathering {s : State} {a : Axis} {h : Held} (hdev : s.dev ≠ .quiescing) (hfail : s.dev ≠ .failed)
    (hg : s.Gathers a h) (c : FaultCause) : HaltedFromGathering s (haltCurrent a c s) a h c := by
  rw [haltCurrent, hg.faultId]
  exact haltAxis_gathering hdev hfail hg c

/-- The halts of other axes leave an axis's fetcher. -/
theorem breakGroup_fetcher {s : State} (hdev : s.dev ≠ .quiescing) (g : GroupIx) {m : AxisSet} {b : Axis}
    (hb : setHas m b = false) : (breakGroup g m s).fetcher (axisRing b) = s.fetcher (axisRing b) := by
  obtain ⟨order, n, hperm, hbreak⟩ := breakGroup_eq hdev g m
  have hnot : b ∉ order := fun h => by
    have hmem := mem_setList.mp (hperm.mem_iff.mp h)
    rw [hb] at hmem
    exact absurd hmem (by decide)
  have hfold : ∀ (l : List Axis) (t : State), b ∉ l →
      (l.foldl (fun t b => haltMember b t) t).fetcher (axisRing b) = t.fetcher (axisRing b) := by
    intro l
    induction l with
    | nil => exact fun _ _ => rfl
    | cons a l ih =>
      intro t hl
      obtain ⟨hne, hl⟩ := not_or.mp (mt List.mem_cons.mpr hl)
      rw [List.foldl_cons, ih _ hl, haltMember_fetcher hne]
  rw [hbreak, hfold order _ hnot]
  rfl

/-- A halt out of a gathering cancels the axis's own fetch. -/
theorem haltAxis_gathering_fetcher {s : State} {a : Axis} {h : Held} (hdev : s.dev ≠ .quiescing) (hg : s.Gathers a h)
    (c : FaultCause) (id : RecId) :
    (haltAxis a c id s).fetcher (axisRing a) = (s.fetcher (axisRing a)).cancel := by
  have hquiesce : (haltCore a c id s).dev ≠ .quiescing := by rwa [(haltCore_rest a c id s).dev]
  rw [haltAxis_of_gathers hg, breakGroup_fetcher hquiesce h.group (by simp [setHas_setErase]), State.fetcher, haltCore_fetchers]
  exact State.modFetcher_fetcher_same ..

/-- Outside WAIT_SYNC a halt is that of the axis alone. -/
theorem haltAxis_of_not_waitSync {s : State} {a : Axis} (h : (s.axis a).st ≠ .waitSync ∨ (s.axis a).held = none) (c : FaultCause)
    (id : RecId) : haltAxis a c id s = haltCore a c id s := by
  have hwaits : (s.axis a).waitsOn = none := by
    rw [AxisBlock.waitsOn]
    split
    next hst =>
      obtain h | h := h
      · exact absurd hst h
      · rw [h]; rfl
    next => rfl
  rw [haltAxis, hwaits]
  rfl

end Sys2Proof.Machine
end

section
/-! PROOFS. O25, O45 and O46: what halts an axis outside its expiry. -/

namespace Sys2Proof.Machine
open Sys2Proof

/-! ### Following a command -/

/-- Outside QUIESCING and FAILED, with no record in hand, nothing follows from a command. -/
theorem settle_of_quiet {s : State} (hq : s.dev ≠ .quiescing) (hf : s.dev ≠ .failed) (hi : s.interp = .waiting) : settle s = s := by
  rw [settle_of_waiting hi, offIfAtRest_of_ne hq hf]

/-- What follows a halt: nothing, outside QUIESCING and FAILED with no record in hand. -/
theorem settle_haltCurrent {s : State} (hq : s.dev ≠ .quiescing) (hf : s.dev ≠ .failed) (hi : s.interp = .waiting) {a : Axis}
    (hst : (s.axis a).st ≠ .off) (c : FaultCause) : settle (haltCurrent a c s) = haltCurrent a c s := by
  have hrest := (haltCurrent_seq a c hst).rest
  exact settle_of_quiet (by rwa [hrest.dev]) (by rwa [hrest.dev]) (hrest.interp.trans hi)

theorem haltCurrent_of_not_waitSync {s : State} {a : Axis} (h : (s.axis a).st ≠ .waitSync ∨ (s.axis a).held = none)
    (c : FaultCause) : haltCurrent a c s = haltCore a c (s.axis a).faultId s := haltAxis_of_not_waitSync h c _

theorem haltCore_axis_same (a : Axis) (c : FaultCause) (id : RecId) (s : State) :
    (haltCore a c id s).axis a = (s.axis a).haltedBy c := (haltCore_axis ..).trans (if_pos rfl)

theorem haltCore_axis_ne {a b : Axis} (h : b ≠ a) (c : FaultCause) (id : RecId) (s : State) :
    (haltCore a c id s).axis b = s.axis b := (haltCore_axis ..).trans (if_neg h)

/-- The FAULT report of a halt stands in the fault slot, at the back of the fill queue. -/
theorem haltCore_faultSlot {s : State} (hdev : s.dev ≠ .failed) (a : Axis) (c : FaultCause) (id : RecId) :
    (haltCore a c id s).entry (faultSlot a) = .filled (faultReport s a c id) :=
  (haltCore_reports hdev a c id).entry_last

/-- A halt cancels the fetch of its axis. -/
theorem haltCore_fetcher (a : Axis) (c : FaultCause) (id : RecId) (s : State) :
    (haltCore a c id s).fetcher (axisRing a) = (s.fetcher (axisRing a)).cancel := by
  rw [State.fetcher, haltCore_fetchers]
  exact State.modFetcher_fetcher_same ..

theorem faultOut_of_halted {s : State} {a : Axis} (h : (s.axis a).st = .halted) : s.faultOut = true :=
  (faultOut_iff s).mpr (.inl ⟨a, h⟩)

/-! ### O25: the end of a read of an axis ring -/

theorem endFetch_axis (r : Fin 5) (s : State) (a : Axis) : (endFetch r s).axis a = s.axis a := rfl

theorem endFetch_fetcher_cancel (r : Fin 5) (s : State) :
    ((endFetch r s).fetcher r).cancel = { s.fetcher r with inFlight := none } := by
  have hfetcher : (endFetch r s).fetcher r = { s.fetcher r with inFlight := none } :=
    State.modFetcher_fetcher_same s r fun f => { f with inFlight := none }
  rw [hfetcher]
  rfl

theorem fetchReadEnd_busError {r : Fin 5} {s : State} {i : Nat} (hdev : s.dev = .online)
    (hflight : (s.fetcher r).inFlight = some { slot := i, cancelled := false }) :
    fetchReadEnd r .busError s = settle (readFailed r (endFetch r s)) := by
  simp [fetchReadEnd, hflight, hdev]

theorem readFailed_axis {a : Axis} {s : State} (hoff : (s.axis a).st ≠ .off) (hhalted : (s.axis a).st ≠ .halted) :
    readFailed (axisRing a) s = haltCurrent a .busError s := by
  have hring : axisRing a ≠ 0 := Fin.succ_ne_zero a
  rw [readFailed, dif_neg hring]
  simp only [pred_axisRing]
  exact if_neg (by simp [hoff, hhalted])

/-- A bus error on the read of an axis out of OFF and HALTED halts it. -/
theorem exec_axisBusError {s : State} {a : Axis} {ad : Addr} {i : Nat} (h : s.Ready)
    (hport : s.port = some (.fetchRead (axisRing a) ad))
    (hflight : (s.fetcher (axisRing a)).inFlight = some { slot := i, cancelled := false }) (hoff : (s.axis a).st ≠ .off)
    (hhalted : (s.axis a).st ≠ .halted) :
    exec (.fetchReadComplete .busError) s = .next (haltCurrent a .busError (endFetch (axisRing a) s)) := by
  have hsettle := settle_haltCurrent (s := endFetch (axisRing a) s) (a := a) (by rw [show (endFetch (axisRing a) s).dev = s.dev from rfl, h.1]; decide)
    (Ready.not_failed h) h.2 hoff .busError
  rw [exec_fetchReadComplete hport, fetchReadEnd_busError h.1 hflight, readFailed_axis (s := endFetch (axisRing a) s) hoff hhalted, hsettle]

/-- Settles O25. -/
theorem axisReadsAreTakenOrHaltTheAxis : Obligations.AxisReadsAreTakenOrHaltTheAxis := by
  intro s a ad d i cancelled
  have hring : axisRing a ≠ 0 := Fin.succ_ne_zero a
  refine ⟨?taken, fun r v hport => ?_, fun r v hport => ?_,
    fun hport res b => ?_, fun h hport hflight hst => ?_, fun k h hport hflight hg => ?_⟩
  case taken =>
    intro hport hflight f
    refine ⟨fun h hc hne => ?_, fun hdiscard => ?_⟩
    · subst hc
      have htakes : takes (axisRing a) s = true := (takes_iff _ s).mpr ⟨.inl h.1, hne, fun h0 => absurd h0 hring⟩
      refine ⟨_, ?_, rfl⟩
      rw [exec_fetchReadComplete hport, fetchReadEnd_taken hflight htakes, takeRecord, deliverRecord_axis, stage, mirrorWord_eq]
      exact congrArg _ (settle_of_online h.1 h.2)
    · rw [exec_fetchReadComplete hport, fetchReadEnd_discarded hflight]
      · rfl
      · refine hdiscard.imp_right fun hd => hd.imp_right fun heq => ?_
        rw [Bool.eq_false_iff, ne_eq, takes_iff]
        exact fun ht => ht.2.1 heq
  · change execMirrorWriteComplete false s = _
    rw [execMirrorWriteComplete, hport]
    rfl
  · change execMirrorWriteComplete false s = _
    rw [execMirrorWriteComplete, hport]
    rfl
  · change execFetchReadComplete res s = _ ∧ execMirrorWriteComplete b s = _ ∧ execCompletionWriteComplete b s = _
    rw [execFetchReadComplete, execMirrorWriteComplete, execCompletionWriteComplete, hport]
    exact ⟨rfl, rfl, rfl⟩
  · have hne : (s.axis a).st ≠ .off ∧ (s.axis a).st ≠ .halted ∧ (s.axis a).st ≠ .waitSync := by
      obtain hst | hst | hst | hst | hst := hst <;> rw [hst] <;> decide
    obtain ⟨hoff, hhalted, hsync⟩ := hne
    refine ⟨_, exec_axisBusError h hport hflight hoff hhalted, ?_⟩
    rw [haltCurrent_of_not_waitSync (s := endFetch (axisRing a) s) (.inl hsync)]
    generalize ((endFetch (axisRing a) s).axis a).faultId = id
    have hrest := haltCore_rest a .busError id (endFetch (axisRing a) s)
    have hself := haltCore_axis_same a .busError id (endFetch (axisRing a) s)
    obtain ⟨lr, hhalt⟩ := (s.axis a).haltedBy_eq .busError
    rw [endFetch_axis, hhalt] at hself
    refine ⟨hrest.port, hrest.dev.trans h.1, ?_, ?_, ?_, ?_, ?_, ?_, ?_, ?_, ?_, ?_,
      (haltCore_fetcher ..).trans (endFetch_fetcher_cancel ..), faultOut_of_halted (a := a) ?_,
      fun b hb => haltCore_axis_ne hb .busError id _, haltCore_groups ..⟩
    all_goals rw [hself]
  · have hoff : (s.axis a).st ≠ .off := by rw [hg.state]; decide
    have hhalted : (s.axis a).st ≠ .halted := by rw [hg.state]; decide
    have hg' : (endFetch (axisRing a) s).Gathers a k := hg.of_pre (fun _ _ => rfl) rfl rfl rfl rfl rfl
    have hq : (endFetch (axisRing a) s).dev ≠ .quiescing := by
      change s.dev ≠ .quiescing
      rw [h.1]
      decide
    have hhalt := haltCurrent_gathering hq (Ready.not_failed h) hg' .busError
    have hrest := (haltCurrent_seq (s := endFetch (axisRing a) s) a .busError hoff).rest
    refine ⟨_, exec_axisBusError h hport hflight hoff hhalted, hrest.port, hrest.dev.trans h.1,
      hhalt.of_pre (fun _ _ => rfl) rfl rfl rfl rfl rfl rfl, ?_, faultOut_of_halted hhalt.state⟩
    rw [haltCurrent, haltAxis_gathering_fetcher hq hg', endFetch_fetcher_cancel]

/-! ### O45: limit edges -/

theorem limitStops_iff (x : AxisBlock) (side : Side) (high : Bool) : limitStops x side high = true ↔
    x.cfg.limitsOn = true ∧ high = x.cfg.limitHigh ∧ (x.st = .run ∨ x.st = .rampDown) ∧ x.dir = limitDir side := by
  simp [limitStops, AxisState.moving_iff, and_assoc]

theorem haltCore_lines (a : Axis) (c : FaultCause) (id : RecId) (s : State) : (haltCore a c id s).lines = s.lines :=
  (haltCore_rest a c id s).lines

/-- Settles O45. -/
theorem limitEdgeHaltsTowardTheLimit : Obligations.LimitEdgeHaltsTowardTheLimit := by
  intro s a side high x line stops moved h
  have hline : line = limitLine a side := by cases side <;> rfl
  have hmoved : moved = setLevel (limitLine a side) high s := by rw [← hline]; rfl
  have hstops : limitStops (moved.axis a) side high = true ↔ stops := by
    rw [limitStops_iff]
    cases side <;> rfl
  have hexec : exec (.limitEdge a side high) s = .next (settle (limitAct a side high moved)) := by
    rw [hmoved]
    rfl
  have hquiet : moved.dev ≠ .quiescing := by
    change s.dev ≠ .quiescing
    rw [h.1]
    decide
  rw [hexec]
  refine ⟨fun hnot => ?_, fun hyes => ?_⟩
  · rw [limitAct, if_neg fun hs => hnot (hstops.mp hs)]
    exact congrArg _ (settle_of_quiet (s := moved) hquiet (Ready.not_failed h) h.2)
  · have hst : (moved.axis a).st = .run ∨ (moved.axis a).st = .rampDown := hyes.2.2.1
    have hne : (moved.axis a).st ≠ .off ∧ (moved.axis a).st ≠ .waitSync := by
      obtain hst | hst := hst <;> rw [hst] <;> decide
    have hact : limitAct a side high moved = haltCurrent a (limitCause (limitDir side)) moved := by
      rw [limitAct, if_pos (hstops.mpr hyes)]
      exact if_neg (Ready.not_failed h)
    generalize hc : limitCause (limitDir side) = c at hact
    rw [hact, settle_haltCurrent (s := moved) hquiet (Ready.not_failed h) h.2 hne.1]
    rw [haltCurrent_of_not_waitSync (.inl hne.2)]
    generalize (moved.axis a).faultId = id
    have hself := haltCore_axis_same a c id moved
    have hslot := haltCore_faultSlot (s := moved) (Ready.not_failed h) a c id
    obtain ⟨lr, hhalt⟩ := (s.axis a).haltedBy_eq c
    have hmaxis : moved.axis a = s.axis a := rfl
    rw [hmaxis, hhalt] at hself
    refine ⟨_, rfl, haltCore_lines .., ?_, ?cause, ?_, ?_, ?_, ?_, ?_, ?_, ?_, ?_, ?_, ?_, ?_, ⟨_, hslot, rfl, ?_⟩,
      fun b hb => haltCore_axis_ne hb c id moved, haltCore_groups ..⟩
    case cause =>
      rw [hself, ← hc]
      cases side <;> rfl
    all_goals rw [hself]
    rfl

/-! ### O46: quadrature -/

/-- The next pair of levels in the forward cycle of Table 6-2. -/
def quadNext (p : Bool × Bool) : Bool × Bool := (! p.2, p.1)

theorem quadStep_back {p q : Bool × Bool} (h : p = quadNext q) : quadStep p.1 p.2 q.1 q.2 = -1 := by
  subst h
  revert q
  decide

theorem quadStep_forth {p q : Bool × Bool} (h : q = quadNext p) : quadStep p.1 p.2 q.1 q.2 = 1 := by
  subst h
  revert p
  decide

theorem quadLevels_setLevel (s : State) (a : Axis) (line : QuadLine) (high : Bool) :
    quadLevels (setLevel (quadInput a line) high s) a = match line with
      | .a => (high, (s.line (.encB a)).level)
      | .b => ((s.line (.encA a)).level, high) := by
  cases line <;> simp [quadLevels, setLevel, quadInput, State.setLine_line]

/-- An edge that counts `c` by the cycle. -/
theorem encoderAct_eq {s : State} {a : Axis} {p : Bool × Bool} (hp : quadLevels s a = p) {c : Int}
    (hc : (s.axis a).quadCount p = c) : encoderAct a s = s.modAxis a fun x => { x with
      encPos := x.encPos + BitVec.ofInt 32 c, acc := max (-2147483647) (min 2147483647 (x.acc - c))
      quadA := p.1, quadB := p.2 } := by
  rw [encoderAct, hp]
  refine State.modAxis_congr s a ?_
  rw [hc, AxisBlock.countQuad, satAcc_eq, Int.sub_eq_add_neg]

/-- The levels of both lines after a quadrature error. -/
def bothLevels (a : Axis) (s : State) : State :=
  setLevel (.encB a) (! (quadLevels s a).2) (setLevel (.encA a) (! (quadLevels s a).1) s)

theorem quadLevels_bothLevels (a : Axis) (s : State) :
    quadLevels (bothLevels a s) a = (! (s.line (.encA a)).level, ! (s.line (.encB a)).level) := by
  simp [bothLevels, quadLevels, setLevel, State.setLine_line]

/-- An axis that has counted a quadrature error (R98, R101). -/
def AxisBlock.quadErred (p : Bool × Bool) (x : AxisBlock) : AxisBlock :=
  { x with quadErrs := satInc x.quadErrs, quadA := p.1, quadB := p.2 }

/-- The state after a quadrature error, before any halt. -/
def quadErred (a : Axis) (s : State) : State :=
  (bothLevels a s).modAxis a (AxisBlock.quadErred (! (s.line (.encA a)).level, ! (s.line (.encB a)).level))

theorem quadErred_axis (a : Axis) (s : State) : (quadErred a s).axis a =
    (s.axis a).quadErred (! (s.line (.encA a)).level, ! (s.line (.encB a)).level) := by
  rw [quadErred, State.modAxis_axis_same]
  rfl

theorem quadErred_axis_ne {a b : Axis} (h : b ≠ a) (s : State) : (quadErred a s).axis b = s.axis b := by
  rw [quadErred, State.modAxis_axis_ne _ _ h]
  rfl

theorem exec_quadratureError (a : Axis) (s : State) : exec (.quadratureError a) s = .next (settle
    (if (s.axis a).cfg.countsPerStep ≠ 0 && (s.axis a).st != .off && (s.axis a).st != .halted && s.dev != .failed then
      haltCurrent a .encoder (quadErred a s) else quadErred a s)) := by
  have hact : quadErrorAct a (bothLevels a s) =
      (if ((quadErred a s).axis a).cfg.countsPerStep ≠ 0 && ((quadErred a s).axis a).st != .off &&
          ((quadErred a s).axis a).st != .halted && (quadErred a s).dev != .failed then
        haltCurrent a .encoder (quadErred a s) else quadErred a s) := by
    rw [quadErrorAct, quadLevels_bothLevels]
    rfl
  change Host.Outcome.next (settle (quadErrorAct a (bothLevels a s))) = _
  rw [hact, quadErred_axis]
  rfl

section
variable {s : State} {a : Axis} (hq : s.dev ≠ .quiescing) (hf : s.dev ≠ .failed) (hi : s.interp = .waiting)
include hq hf hi

theorem quadratureError_counts (h : (s.axis a).cfg.countsPerStep = 0 ∨ (s.axis a).st = .off ∨ (s.axis a).st = .halted) :
    exec (.quadratureError a) s = .next (quadErred a s) := by
  rw [exec_quadratureError, if_neg ?_, settle_of_quiet (s := quadErred a s) hq hf hi]
  obtain h | h | h := h <;> simp [h]

theorem quadratureError_halts (hc : (s.axis a).cfg.countsPerStep ≠ 0) (hoff : (s.axis a).st ≠ .off)
    (hhalted : (s.axis a).st ≠ .halted) : exec (.quadratureError a) s = .next (haltCurrent a .encoder (quadErred a s)) := by
  have hst : ((quadErred a s).axis a).st ≠ .off := by rwa [quadErred_axis]
  rw [exec_quadratureError, if_pos (by simp [hc, hoff, hhalted, hf]), settle_haltCurrent (s := quadErred a s) hq hf hi hst]

end

theorem haltCurrent_lines {s : State} {a : Axis} (h : (s.axis a).st ≠ .off) (c : FaultCause) :
    (haltCurrent a c s).lines = s.lines := (haltCurrent_seq a c h).rest.lines

/-- Of its own axis a halt out of a gathering leaves what a halt leaves. -/
theorem haltCurrent_gathering_axis {s : State} {a : Axis} {h : Held} (hq : s.dev ≠ .quiescing) (hg : s.Gathers a h)
    (c : FaultCause) : (haltCurrent a c s).axis a = (s.axis a).haltedBy c := by
  have hquiesce : (haltCore a c (s.axis a).faultId s).dev ≠ .quiescing := by rwa [(haltCore_rest a c _ s).dev]
  rw [haltCurrent, haltAxis_of_gathers hg, breakGroup_axis hquiesce, if_neg (by simp [setHas_setErase]), haltCore_axis_same]

/-- Settles O46. -/
theorem quadratureCountsAndErrors : Obligations.QuadratureCountsAndErrors := by
  intro s a line high x pair succ old moved result lines errs
  have hmoved : moved = setLevel (quadInput a line) high s := by cases line <;> rfl
  have hpair : quadLevels moved a = pair := by
    rw [hmoved]
    exact (quadLevels_setLevel ..).trans (by cases line <;> rfl)
  have hexec : exec (.encoderTransition a line high) s = .next (encoderAct a moved) := by rw [hmoved]; rfl
  have hlines : lines = bothLevels a s := rfl
  refine ⟨fun hback => ?_, fun hforth => ?_, fun hq hf hi => ⟨fun hno => ?_, fun hc hoff hhalted hsync => ?_, fun h hc hg => ?_⟩⟩
  · rw [hexec]
    refine congrArg _ (encoderAct_eq hpair ?_)
    have hstep : quadStep x.quadA x.quadB pair.1 pair.2 = -1 := quadStep_back (p := old) hback
    change (if x.cfg.inverted then -quadStep x.quadA x.quadB pair.1 pair.2 else quadStep x.quadA x.quadB pair.1 pair.2) = _
    rw [hstep]
    rfl
  · rw [hexec]
    refine congrArg _ (encoderAct_eq hpair ?_)
    have hstep : quadStep x.quadA x.quadB pair.1 pair.2 = 1 := quadStep_forth (p := old) hforth
    change (if x.cfg.inverted then -quadStep x.quadA x.quadB pair.1 pair.2 else quadStep x.quadA x.quadB pair.1 pair.2) = _
    rw [hstep]
  · exact quadratureError_counts hq hf hi hno
  · have hst : ((quadErred a s).axis a).st ≠ .waitSync := by rwa [quadErred_axis]
    have hst' : ((quadErred a s).axis a).st ≠ .off := by rwa [quadErred_axis]
    have hlines' := haltCurrent_lines hst' .encoder
    rw [quadratureError_halts hq hf hi hc hoff hhalted]
    rw [haltCurrent_of_not_waitSync (.inl hst)] at hlines' ⊢
    generalize ((quadErred a s).axis a).faultId = id at hlines' ⊢
    have hself := haltCore_axis_same a .encoder id (quadErred a s)
    obtain ⟨lr, hhalt⟩ := ((quadErred a s).axis a).haltedBy_eq .encoder
    rw [hhalt, quadErred_axis] at hself
    refine ⟨_, rfl, hlines', ?_, ?_, ?_, ?_, ?_, ?_, ?_, ?_, ?_,
      fun b hb => (haltCore_axis_ne hb .encoder id _).trans (quadErred_axis_ne hb s)⟩
    all_goals rw [hself]
    all_goals rfl
  · have hoff : (s.axis a).st ≠ .off := by rw [hg.state]; decide
    have hhalted : (s.axis a).st ≠ .halted := by rw [hg.state]; decide
    have hst' : ((quadErred a s).axis a).st ≠ .off := by rwa [quadErred_axis]
    have hg' : (quadErred a s).Gathers a h := hg.of_pre (fun b hb => quadErred_axis_ne hb s) (by rw [quadErred_axis]; rfl)
      (by rw [quadErred_axis]; rfl) (by rw [quadErred_axis]; rfl) (by rw [quadErred_axis]; rfl) rfl
    have hself := haltCurrent_gathering_axis (s := quadErred a s) hq hg' .encoder
    obtain ⟨lr, hhalt⟩ := ((quadErred a s).axis a).haltedBy_eq .encoder
    rw [hhalt, quadErred_axis] at hself
    rw [quadratureError_halts hq hf hi hc hoff hhalted]
    refine ⟨_, rfl, haltCurrent_lines hst' .encoder, (haltCurrent_gathering (s := quadErred a s) hq hf hg' .encoder).of_pre
      (fun b hb => quadErred_axis_ne hb s) (by rw [quadErred_axis]; rfl) (by rw [quadErred_axis]; rfl)
      (by rw [quadErred_axis]; rfl) rfl rfl rfl, by rw [hself]; rfl, by rw [hself]; rfl⟩

end Sys2Proof.Machine
end

section
/-! PROOFS. The expiry of the update-period timer, and O32, O33 and O37. -/

namespace Sys2Proof.Machine
open Sys2Proof

/-! ### The group timeouts an expiry counts -/

theorem State.modGroup_self {s : State} {g : GroupIx} {f : Group → Group} (h : f (s.group g) = s.group g) : s.modGroup g f = s := by
  have hget : f s.groups[g] = s.groups[g] := h
  rw [State.modGroup, hget]
  simp

theorem Group.tick_of_ne {x : Group} (h : x.st ≠ .gathering) : x.tick = x := if_neg h

/-- Groups that do not gather count no expiry. -/
theorem countTimeouts_of_none {l : List GroupIx} {s : State} (h : ∀ g ∈ l, (s.group g).st ≠ .gathering) : countTimeouts l s = s := by
  have hfold : l.foldl (fun t g => t.modGroup g Group.tick) s = s := by
    induction l with
    | nil => rfl
    | cons g l ih =>
      obtain ⟨hg, hl⟩ := List.forall_mem_cons.mp h
      rw [List.foldl_cons, State.modGroup_self (Group.tick_of_ne hg)]
      exact ih hl
  have hfilter : (l.filter fun g => (s.group g).timedOut) = [] :=
    List.filter_eq_nil_iff.mpr fun g hg => by simp [Group.timedOut, h g hg]
  rw [countTimeouts, hfold, hfilter, inSomeOrder_nil]

theorem mem_timedGroups {a : Axis} {s : State} {g : GroupIx} : g ∈ timedGroups a s ↔
    (s.group g).st = .gathering ∧ (s.group g).timeout.isSome = true ∧ setLowest (s.group g).members = some a := by
  have hmem : g ∈ allGroups := by
    revert g
    decide
  simp [timedGroups, hmem, and_assoc]

/-! ### An expiry -/

/-- The state at an expiry, before its work: the timer runs on. -/
def State.expired (s : State) (a : Axis) : State := s.modAxis a AxisBlock.expire

theorem AxisBlock.expire_eq (x : AxisBlock) :
    x.expire = { x with timer := some (50 * x.cfg.updatePeriod), setupMark := false } := by
  rw [AxisBlock.expire, ticksOf_eq]

@[simp] theorem State.expired_axis (s : State) (a : Axis) : (s.expired a).axis a = (s.axis a).expire :=
  State.modAxis_axis_same ..

theorem State.expired_axis_ne (s : State) {a b : Axis} (h : b ≠ a) : (s.expired a).axis b = s.axis b :=
  State.modAxis_axis_ne _ _ h

/-- An expiry whose work leaves none of the counting groups gathering. -/
theorem exec_expiry {s : State} {a : Axis} (hoff : (s.axis a).st ≠ .off)
    (hgroups : ∀ g, (s.group g).st = .gathering → ((expiryWork a (s.expired a)).group g).st ≠ .gathering) :
    exec (.updatePeriodExpiry a) s = .next (settle (expiryWork a (s.expired a))) := by
  have hcount : countTimeouts (timedGroups a s) (expiryWork a (s.expired a)) = expiryWork a (s.expired a) :=
    countTimeouts_of_none fun g hg => hgroups g (mem_timedGroups.mp hg).1
  change Host.Outcome.next (expiryNow a s) = _
  rw [expiryNow, if_neg hoff]
  exact congrArg (fun t => Host.Outcome.next (settle t)) hcount

theorem exec_expiry_of_none {s : State} {a : Axis} (hoff : (s.axis a).st ≠ .off) (hnone : ∀ g, (s.group g).st ≠ .gathering) :
    exec (.updatePeriodExpiry a) s = .next (settle (expiryWork a (s.expired a))) :=
  exec_expiry hoff fun g hg => absurd hg (hnone g)

/-- The work of an expiry in a device that is ONLINE leaves nothing to follow. -/
theorem settle_expiryWork {s : State} {a : Axis} (h : s.Ready) (hoff : (s.axis a).st ≠ .off) :
    settle (expiryWork a (s.expired a)) = expiryWork a (s.expired a) := by
  have hwork := (expiryWork_work (s := s.expired a) a (by rw [State.expired_axis]; exact hoff)).rest h.2
  exact settle_of_online (hwork.dev.trans h.1) (hwork.interp.trans h.2)

theorem exec_expiry_ready {s : State} {a : Axis} (h : s.Ready) (hoff : (s.axis a).st ≠ .off)
    (hnone : ∀ g, (s.group g).st ≠ .gathering) :
    exec (.updatePeriodExpiry a) s = .next (expiryWork a (s.expired a)) := by
  rw [exec_expiry_of_none hoff hnone, settle_expiryWork h hoff]

/-! ### The following-error check -/

theorem AxisBlock.checkFails_iff (x : AxisBlock) :
    x.checkFails = true ↔ x.cfg.countsPerStep ≠ 0 ∧ x.cfg.followWindow < x.acc.natAbs := by
  simp [AxisBlock.checkFails, AxisBlock.outsideWindow]

theorem AxisBlock.checkFails_false_iff (x : AxisBlock) :
    x.checkFails = false ↔ x.cfg.countsPerStep = 0 ∨ x.acc.natAbs ≤ x.cfg.followWindow := by
  rw [← Bool.not_eq_true, AxisBlock.checkFails_iff]
  grind

theorem expiryWork_halted {s : State} {a : Axis} (hdev : s.dev ≠ .failed) (hst : (s.axis a).st = .halted) :
    expiryWork a s = s.modAxis a AxisBlock.checkHalted := by
  rw [expiryWork, if_neg hdev, if_pos hst]

theorem expiryWork_fails {s : State} {a : Axis} (hdev : s.dev ≠ .failed) (hst : (s.axis a).st ≠ .halted)
    (hc : (s.axis a).cfg.countsPerStep ≠ 0) (hout : (s.axis a).cfg.followWindow < (s.axis a).acc.natAbs) :
    expiryWork a s = haltCurrent a .following s := by
  rw [expiryWork, if_neg hdev, if_neg hst, if_pos ((AxisBlock.checkFails_iff _).mpr ⟨hc, hout⟩)]

theorem expiryWork_passes {s : State} {a : Axis} (hdev : s.dev ≠ .failed) (hst : (s.axis a).st ≠ .halted)
    (hin : (s.axis a).cfg.countsPerStep = 0 ∨ (s.axis a).acc.natAbs ≤ (s.axis a).cfg.followWindow) :
    expiryWork a s = stateWork a s := by
  rw [expiryWork, if_neg hdev, if_neg hst, if_neg]
  rw [(AxisBlock.checkFails_false_iff _).mpr hin]
  decide

/-- An expiry within the window, in a device that is ONLINE with no group gathering. -/
theorem exec_expiry_passes {s : State} {a : Axis} (h : s.Ready) (hnone : ∀ g, (s.group g).st ≠ .gathering)
    (hoff : (s.axis a).st ≠ .off) (hhalted : (s.axis a).st ≠ .halted)
    (hin : (s.axis a).cfg.countsPerStep = 0 ∨ (s.axis a).acc.natAbs ≤ (s.axis a).cfg.followWindow) :
    exec (.updatePeriodExpiry a) s = .next (stateWork a (s.expired a)) := by
  rw [exec_expiry_ready h hoff hnone, expiryWork_passes (Ready.not_failed (s := s.expired a) h)]
  · rwa [State.expired_axis]
  · rwa [State.expired_axis]

theorem AxisBlock.outsideWindow_eq (x : AxisBlock) : x.outsideWindow = decide (x.cfg.followWindow < x.acc.natAbs) := rfl

/-- The FAULT report of an expiry shows the axis as it stood. -/
theorem faultReport_expired (s : State) (a : Axis) (c : FaultCause) (id : RecId) :
    faultReport (s.expired a) a c id = faultReport s a c id := by
  rw [faultReport, faultReport, State.expired_axis]
  simp only [axisReport, State.expired_axis]
  rfl

theorem Reports.getLast {s t : State} {l : List (Fin 24 × Report)} {e : Fin 24} {r : Report} (h : Reports s t (l ++ [(e, r)])) :
    t.fillQueue.getLast? = some e := by
  rw [h.queue, List.map_append, ← List.append_assoc]
  exact List.getLast?_concat

/-- The check of a HALTED axis with feedback (R62). -/
theorem AxisBlock.checkHalted_of_feedback {x : AxisBlock} (h : x.cfg.countsPerStep ≠ 0) : x.checkHalted = { x with
    outside := x.outsideWindow
    further := if x.outsideWindow = true ∧ x.outside = false ∧ x.further < 255 then x.further + 1 else x.further } := by
  rw [AxisBlock.checkHalted, if_neg h]
  cases hwindow : x.outsideWindow <;> cases houtside : x.outside <;> simp [satInc]

/-- Settles O32. -/
theorem expiryChecksTheFollowingError : Obligations.ExpiryChecksTheFollowingError := by
  intro s a x out
  refine ⟨fun h hready hothers hg hc hout => ?_, fun hready hnone => ⟨fun hst hheld hc hout => ?_, fun hst hc => ?_, fun hst hc => ?_⟩⟩
  · have hoff : (s.axis a).st ≠ .off := by rw [hg.state]; decide
    have hdev : (s.expired a).dev = .online := hready.1
    have hg' : (s.expired a).Gathers a h :=
      hg.of_pre (fun b hb => s.expired_axis_ne hb) (by rw [State.expired_axis]; rfl) (by rw [State.expired_axis]; rfl)
        (by rw [State.expired_axis]; rfl) (by rw [State.expired_axis]; rfl) rfl
    have hwork : expiryWork a (s.expired a) = haltCurrent a .following (s.expired a) :=
      expiryWork_fails (by rw [hdev]; decide) (by rw [hg'.state]; decide) (by rwa [State.expired_axis]) (by rwa [State.expired_axis])
    have hhalt := haltCurrent_gathering (s := s.expired a) (by rw [hdev]; decide) (by rw [hdev]; decide) hg' .following
    have hexec := exec_expiry (s := s) hoff fun g hgather => by
      rw [hwork]
      have heq : g = h.group := Decidable.by_contra fun hne => hothers g hne hgather
      rw [heq, hhalt.group]
      exact GroupState.noConfusion
    rw [settle_expiryWork hready hoff, hwork] at hexec
    have hself := haltCurrent_gathering_axis (s := s.expired a) (by rw [hdev]; decide) hg' .following
    obtain ⟨lr, hhalted⟩ := (s.axis a).expire.haltedBy_eq .following
    rw [State.expired_axis, hhalted] at hself
    refine ⟨_, hexec, hhalt.of_pre (fun b hb => s.expired_axis_ne hb) (by rw [State.expired_axis]; rfl)
      (by rw [State.expired_axis]; rfl) (by rw [State.expired_axis]; rfl) rfl rfl rfl, ?_, ?_, faultOut_of_halted hhalt.state⟩
    · rw [hself]
      exact decide_eq_true hout
    · rw [hself, AxisBlock.expire_eq]
  · have hne : (s.axis a).st ≠ .off ∧ (s.axis a).st ≠ .halted := by
      obtain hst | hst | hst | hst | hst := hst <;> rw [show (s.axis a).st = _ from hst] <;> decide
    have hfail : (s.expired a).dev ≠ .failed := Ready.not_failed (s := s.expired a) hready
    have hwork : expiryWork a (s.expired a) = haltCore a .following (s.axis a).faultId (s.expired a) := by
      rw [expiryWork_fails hfail (by rw [State.expired_axis]; exact hne.2) (by rwa [State.expired_axis]) (by rwa [State.expired_axis]),
        haltCurrent_of_not_waitSync (.inr (by rw [State.expired_axis]; exact hheld)), State.expired_axis]
      rfl
    have hself := haltCore_axis_same a .following (s.axis a).faultId (s.expired a)
    obtain ⟨lr, hhalted⟩ := (s.axis a).expire.haltedBy_eq .following
    rw [State.expired_axis, hhalted] at hself
    refine ⟨_, (exec_expiry_ready hready hne.1 hnone).trans (congrArg _ hwork), ?_⟩
    have hslot := haltCore_faultSlot (s := s.expired a) hfail a .following (s.axis a).faultId
    rw [faultReport_expired, faultReport, AxisBlock.lastTag_eq] at hslot
    have hhalts : ((haltCore a .following (s.axis a).faultId (s.expired a)).axis a).st = .halted := by rw [hself]
    refine ⟨hhalts, ?_, ?_, ?_, ?_, ?_, ?_, ?_, ?_, ?outside, ?_, ?_, ?timer, hslot, (haltCore_reports hfail a ..).getLast,
      fun b hb => (haltCore_axis_ne hb ..).trans (s.expired_axis_ne hb), haltCore_groups .., faultOut_of_halted hhalts⟩
    case outside =>
      rw [hself]
      exact decide_eq_true hout
    case timer => rw [hself, AxisBlock.expire_eq]
    all_goals simp only [hself, AxisBlock.expire]
    all_goals rfl
  · have hx : (s.axis a).st = .halted := hst
    rw [exec_expiry_ready hready (by rw [hx]; decide) hnone,
      expiryWork_halted (Ready.not_failed (s := s.expired a) hready) (by rw [State.expired_axis]; exact hst)]
    refine congrArg _ ((State.modAxis_modAxis ..).trans (State.modAxis_congr _ _ ?_))
    rw [AxisBlock.checkHalted, AxisBlock.expire_eq]
    exact if_pos hc
  · have hx : (s.axis a).st = .halted := hst
    rw [exec_expiry_ready hready (by rw [hx]; decide) hnone,
      expiryWork_halted (Ready.not_failed (s := s.expired a) hready) (by rw [State.expired_axis]; exact hst)]
    refine congrArg _ ((State.modAxis_modAxis ..).trans (State.modAxis_congr _ _ ?_))
    rw [AxisBlock.checkHalted_of_feedback (x := (s.axis a).expire) hc, AxisBlock.expire_eq, AxisBlock.outsideWindow_eq]
    simp only [decide_eq_true_eq]
    rfl

end Sys2Proof.Machine
end

section
/-! PROOFS. O33, O34 and O37: the work of an expiry in RUN, DWELL and WAIT_EVENT. -/

namespace Sys2Proof.Machine
open Sys2Proof

/-! ### The work of an expiry by axis state -/

section
variable {s : State} {a : Axis}

theorem stateWork_idle (h : (s.axis a).st = .idle) : stateWork a s = considerQueue a (s.axis a).staging.length s := by
  simp only [stateWork, h]

theorem stateWork_run (h : (s.axis a).st = .run) : stateWork a s = runWork a s := by simp only [stateWork, h]

theorem stateWork_dwell (h : (s.axis a).st = .dwell) : stateWork a s = dwellWork a s := by simp only [stateWork, h]

theorem stateWork_waitEvent (h : (s.axis a).st = .waitEvent) : stateWork a s = waitWork a s := by simp only [stateWork, h]

theorem stateWork_waitSync (h : (s.axis a).st = .waitSync) : stateWork a s = s := by simp only [stateWork, h]

theorem stateWork_rampDown (h : (s.axis a).st = .rampDown) : stateWork a s = rampWork a s := by simp only [stateWork, h]

end

/-! ### Retirement -/

/-- The active segment `g` of an axis retires. -/
def AxisBlock.retires (g : Segment) (x : AxisBlock) : AxisBlock := { x with active := none, lastRetired := some g.record.id }

section
variable {s : State} {a : Axis} {g : Segment} (hactive : (s.axis a).active = some g)
include hactive

/-- A segment that has a report retires into its entry (R18). -/
theorem retireActive_fills (hdev : s.dev ≠ .failed) {st : Status} (hreport : (g.record.report || st != .ok) = true)
    (c : Option FaultCause) (w : Segment → Word × Word) : retireActive a st c w s =
      (s.modAxis a (AxisBlock.retires g)).withReport g.entry (axisReport s a .segment st c g.record.id 0 0 (w g).1 (w g).2) := by
  simp only [retireActive, hactive]
  rw [reportSegment_fills a g.entry c (w g) hdev hreport]
  rfl

/-- A segment without a report that retires OK leaves its entry FREE (R6). -/
theorem retireActive_releases (hi : s.interp = .waiting) (hreport : g.record.report = false) (c : Option FaultCause)
    (w : Segment → Word × Word) :
    retireActive a .ok c w s = (s.modAxis a (AxisBlock.retires g)).setEntry g.entry .free := by
  simp only [retireActive, hactive]
  rw [reportSegment_releases a g.entry c (w g) hi hreport]
  rfl

end

/-! ### An expiry that ends in the consideration of the queue -/

theorem becomeIdle_eq (a : Axis) (s : State) :
    becomeIdle a s = considerQueue a (s.axis a).staging.length (s.modAxis a fun x => { x with st := .idle }) := by
  rw [becomeIdle, State.modAxis_axis_same]

theorem AxisBlock.expire_of_expired {x : AxisBlock} (htimer : x.timer = some (50 * x.cfg.updatePeriod))
    (hmark : x.setupMark = false) : x.expire = x := by
  rw [AxisBlock.expire_eq, ← htimer, ← hmark]

theorem State.modAxis_self {s : State} {a : Axis} {f : AxisBlock → AxisBlock} (h : f (s.axis a) = s.axis a) : s.modAxis a f = s := by
  rw [State.modAxis_congr s a (g := fun x => x) h, State.modAxis_id]

/-- An axis at rest whose timer has just expired: one more expiry of the same instant considers its queue. -/
structure State.AtRest (s : State) (a : Axis) : Prop where
  ready : s.Ready
  quiet : ∀ g, (s.group g).st ≠ .gathering
  state : (s.axis a).st = .idle
  window : (s.axis a).cfg.countsPerStep = 0 ∨ (s.axis a).acc.natAbs ≤ (s.axis a).cfg.followWindow
  timer : (s.axis a).timer = some (50 * (s.axis a).cfg.updatePeriod)
  mark : (s.axis a).setupMark = false

theorem exec_expiry_atRest {s : State} {a : Axis} (h : s.AtRest a) :
    exec (.updatePeriodExpiry a) s = .next (considerQueue a (s.axis a).staging.length s) := by
  have hself : s.expired a = s := State.modAxis_self (AxisBlock.expire_of_expired h.timer h.mark)
  rw [exec_expiry_passes h.ready h.quiet (by rw [h.state]; decide) (by rw [h.state]; decide) h.window, hself, stateWork_idle h.state]

/-- Where an expiry goes on with the consideration of the queue in a state at rest, it leaves what it leaves on that state. -/
theorem exec_expiry_goesOn {s t : State} {a : Axis} {n : Nat} (h : exec (.updatePeriodExpiry a) s = .next (considerQueue a n t))
    (hrest : t.AtRest a) (hn : (t.axis a).staging.length = n) :
    exec (.updatePeriodExpiry a) s = exec (.updatePeriodExpiry a) t := by
  rw [h, exec_expiry_atRest hrest, hn]

/-! ### O33: a period in RUN -/

theorem AxisBlock.pulseTimes_of_clear {x : AxisBlock} (h : x.setupMark = false) (n : Nat) :
    x.pulseTimes n = (List.range n).map fun k => k * (50 * x.cfg.updatePeriod) / n := by
  rw [AxisBlock.pulseTimes, h, ticksOf_eq]
  rfl

/-- The period that an expiry in RUN opens (R30 to R34). -/
theorem AxisBlock.openPeriod_expire {x : AxisBlock} (m : Move) (h : x.firstMark = false) :
    x.expire.openPeriod m =
      let rate := clampRate x.cfg (x.rate + m.delta)
      let steps := min ((x.frac + rate) / 65536) x.remaining
      { x with
        timer := some (50 * x.cfg.updatePeriod), setupMark := false, rate := rate, frac := (x.frac + rate) % 65536
        remaining := x.remaining - steps, firstMark := false, periodSteps := steps
        schedule := x.schedule ++ (List.range steps).map fun k => k * (50 * x.cfg.updatePeriod) / steps } := by
  have hrate : x.expire.nextRate m = clampRate x.cfg (x.rate + m.delta) := by
    rw [AxisBlock.nextRate, if_neg]
    · rfl
    · rw [AxisBlock.expire]
      simp [h]
  rw [AxisBlock.openPeriod, AxisBlock.handOver, hrate, AxisBlock.expire_eq, AxisBlock.pulseTimes_of_clear rfl]

theorem runWork_move {s : State} {a : Axis} {g : Segment} {m : Move} (hactive : (s.axis a).active = some g)
    (hbody : g.record.body = .move m) :
    runWork a s = if (s.axis a).remaining = 0 then endMove a g m s else s.modAxis a (AxisBlock.openPeriod m) := by
  simp only [runWork, hactive, hbody]

/-- Settles O33. -/
theorem runExpiryComputesThePeriod : Obligations.RunExpiryComputesThePeriod := by
  intro s a g m x sum rate steps h hnone hst hactive hbody hremaining hmark hin
  have hx : (s.axis a).st = .run := hst
  have hremains : (s.axis a).expire.remaining ≠ 0 := Nat.ne_of_gt hremaining
  rw [exec_expiry_passes h hnone (by rw [hx]; decide) (by rw [hx]; decide) hin,
    stateWork_run (by rw [State.expired_axis]; exact hst), runWork_move (by rw [State.expired_axis]; exact hactive) hbody,
    State.expired_axis, if_neg hremains]
  refine congrArg _ ((State.modAxis_modAxis ..).trans (State.modAxis_congr _ _ ?_))
  exact AxisBlock.openPeriod_expire m hmark

/-! ### O34: the end of a MOVE at rest -/

section
variable {s : State} {a : Axis} {g : Segment} {m : Move} (h : s.Ready) (hnone : ∀ g, (s.group g).st ≠ .gathering)
  (hst : (s.axis a).st = .run) (hactive : (s.axis a).active = some g) (hbody : g.record.body = .move m)
  (hremaining : (s.axis a).remaining = 0)
  (hin : (s.axis a).cfg.countsPerStep = 0 ∨ (s.axis a).acc.natAbs ≤ (s.axis a).cfg.followWindow)
include h hnone hst hactive hbody hremaining hin

/-- The expiry that finds no steps remaining: the MOVE ends. -/
theorem exec_expiry_endMove : exec (.updatePeriodExpiry a) s = .next (endMove a g m (s.expired a)) := by
  have hdone : (s.axis a).expire.remaining = 0 := hremaining
  rw [exec_expiry_passes h hnone (by rw [hst]; decide) (by rw [hst]; decide) hin,
    stateWork_run (by rw [State.expired_axis]; exact hst), runWork_move (by rw [State.expired_axis]; exact hactive) hbody,
    State.expired_axis, if_pos hdone]

/-- With exit REST it retires OK with its step count, and comes to rest. -/
theorem exec_expiry_restExit (hexit : m.exit = .rest) : exec (.updatePeriodExpiry a) s =
    .next (restExit a g.record.id (retireActive a .ok none (fun _ => (BitVec.ofNat 32 m.steps, 0)) (s.expired a))) := by
  rw [exec_expiry_endMove h hnone hst hactive hbody hremaining hin,
    endMove_of_waiting (s := s.expired a) a g m h.2 (by rw [State.expired_axis]; exact hst)]
  simp only [hexit]

/-- With exit CONTINUE it retires OK with its step count, and a join follows. -/
theorem exec_expiry_continueExit (hexit : m.exit = .continue) : exec (.updatePeriodExpiry a) s =
    .next (continueJoin a g.record.id (retireActive a .ok none (fun _ => (BitVec.ofNat 32 m.steps, 0)) (s.expired a))) := by
  rw [exec_expiry_endMove h hnone hst hactive hbody hremaining hin,
    endMove_of_waiting (s := s.expired a) a g m h.2 (by rw [State.expired_axis]; exact hst)]
  simp only [hexit]

end

/-- The report of a record that retires at an expiry shows the axis and the time as they stood. -/
theorem axisReport_expired (s : State) (a : Axis) (k : ReportKind) (st : Status) (c : Option FaultCause) (id : RecId) (n m : Nat)
    (x y : Word) : axisReport (s.expired a) a k st c id n m x y = axisReport s a k st c id n m x y :=
  axisReport_congr (s := s) (t := s.expired a) rfl (by rw [State.expired_axis]; rfl) (by rw [State.expired_axis]; rfl) ..

theorem AxisRecord.id_eq (r : AxisRecord) : r.id = { tag := r.tag, kind := r.kind } := rfl

theorem AxisRecord.kind_move {r : AxisRecord} {m : Move} (h : r.body = .move m) : r.kind = 0x01 := by
  simp only [AxisRecord.kind, h]

/-- The rate, the fraction and the period's steps of an axis at the end of a MOVE (R36). -/
def AxisBlock.slowed (x : AxisBlock) : AxisBlock := { x with rate := 0, frac := 0, periodSteps := 0 }

theorem restExit_idles {s : State} {a : Axis} (h : (s.axis a).rate ≤ (s.axis a).cfg.jumpLimit) (id : RecId) :
    restExit a id s = considerQueue a (s.axis a).staging.length (s.modAxis a fun x => { x.slowed with st := .idle }) := by
  rw [restExit, if_neg (Nat.not_lt.mpr h), becomeIdle_eq, State.modAxis_modAxis, State.modAxis_axis_same]
  rfl

theorem restExit_halts {s : State} {a : Axis} (h : (s.axis a).cfg.jumpLimit < (s.axis a).rate) (id : RecId) :
    restExit a id s = haltAxis a .rateJump id (s.modAxis a AxisBlock.slowed) := by
  rw [restExit, if_pos h]
  rfl

/-- The halt of an axis without a record and a request leaves its FAULT report alone. -/
theorem haltCore_reports_bare {s : State} (hdev : s.dev ≠ .failed) {a : Axis} (hactive : (s.axis a).active = none)
    (hheld : (s.axis a).held = none) (hrequest : (s.axis a).stopReq = none) (c : FaultCause) (id : RecId) :
    Reports s (haltCore a c id s) [(faultSlot a, faultReport s a c id)] := by
  have hreports := haltCore_reports hdev a c id
  simp only [haltReports, activeReport, heldReport, requestReport, hactive, hheld, hrequest, List.nil_append] at hreports
  exact hreports

/-- Settles O34. -/
theorem moveEndsAtRest : Obligations.MoveEndsAtRest := by
  intro s a g m x h hnone hst hactive hbody hexit hremaining hheld hin ended done rested
  have hexec := exec_expiry_restExit h hnone hst hactive hbody hremaining hin hexit
  have hactive' : ((s.expired a).axis a).active = some g := by rw [State.expired_axis]; exact hactive
  have hdev : (s.expired a).dev ≠ .failed := Ready.not_failed (s := s.expired a) h
  -- the state the MOVE leaves in the buffer
  generalize hu : retireActive a .ok none (fun _ => (BitVec.ofNat 32 m.steps, 0)) (s.expired a) = u at hexec
  have hdone : axisReport (s.expired a) a .segment .ok none g.record.id 0 0 (BitVec.ofNat 32 m.steps) 0 = done := by
    rw [axisReport_expired, axisReport, AxisRecord.id_eq, AxisRecord.kind_move hbody]
  have hretired : u = if g.record.report then ((s.expired a).modAxis a (AxisBlock.retires g)).withReport g.entry done
      else ((s.expired a).modAxis a (AxisBlock.retires g)).setEntry g.entry .free := by
    cases hreport : g.record.report with
    | true => rw [← hu, retireActive_fills hactive' hdev (by simp [hreport]), hdone, if_pos rfl]
    | false =>
      rw [← hu, retireActive_releases hactive' h.2 hreport]
      rfl
  have haxis : u.axis a = (s.axis a).expire.retires g := by
    have hmod := State.modAxis_axis_same (s.expired a) a (AxisBlock.retires g)
    rw [State.expired_axis] at hmod
    rw [hretired]
    split <;> exact hmod
  have hrate : (u.axis a).rate = x.rate ∧ (u.axis a).cfg = x.cfg ∧ (u.axis a).staging = x.staging := by
    rw [haxis]
    exact ⟨rfl, rfl, rfl⟩
  obtain ⟨hrate, hcfg, hstaging⟩ := hrate
  have hidle : u.modAxis a (fun x => { x.slowed with st := .idle }) = rested := by
    have hended : ((s.expired a).modAxis a (AxisBlock.retires g)).modAxis a (fun x => { x.slowed with st := .idle })
        = s.modAxis a ended := by
      rw [State.expired, State.modAxis_modAxis, State.modAxis_modAxis]
      refine State.modAxis_congr _ _ ?_
      rw [AxisBlock.expire_eq, AxisBlock.retires, AxisBlock.slowed, AxisRecord.id_eq, AxisRecord.kind_move hbody]
    rw [hretired]
    change _ = if g.record.report then _ else _
    cases g.record.report
    · exact (State.setEntry_modAxis ..).trans (congrArg (State.setEntry · g.entry .free) hended)
    · exact (State.withReport_modAxis ..).trans (congrArg (State.withReport · g.entry done) hended)
  have hgoes : x.rate ≤ x.cfg.jumpLimit → exec (.updatePeriodExpiry a) s = .next (considerQueue a x.staging.length rested) := by
    intro hrest
    rw [hexec, restExit_idles (by rw [hrate, hcfg]; exact hrest), hidle, hstaging]
  refine ⟨fun hrest => exec_expiry_goesOn (hgoes hrest) ?_ ?_, fun hrest hempty => ?_, fun hjump => ?_⟩
  · have hrested : rested.axis a = ended (s.axis a) := by
      change (if g.record.report = true then _ else _ : State).axis a = _
      split <;> exact State.modAxis_axis_same ..
    have hkept : rested.Ready ∧ ∀ g, rested.group g = s.group g := by
      change State.Ready (if g.record.report = true then _ else _ : State) ∧ ∀ k, (if g.record.report = true then _ else _ : State).group k = _
      split <;> exact ⟨h, fun _ => rfl⟩
    obtain ⟨hready, hgroup⟩ := hkept
    exact ⟨hready, fun k => by rw [hgroup]; exact hnone k, by rw [hrested], by rw [hrested]; exact hin, by rw [hrested], by rw [hrested]⟩
  · rw [← hidle, State.modAxis_axis_same]
    exact congrArg List.length hstaging
  · rw [hgoes hrest, hempty]
    rfl
  · have hslow : (u.modAxis a AxisBlock.slowed).axis a = ((s.axis a).expire.retires g).slowed := by
      rw [State.modAxis_axis_same, haxis]
    have hhalt : exec (.updatePeriodExpiry a) s = .next (haltCore a .rateJump g.record.id (u.modAxis a AxisBlock.slowed)) := by
      rw [hexec, restExit_halts (by rw [hrate, hcfg]; exact hjump), haltAxis_of_not_waitSync (.inr (by rw [hslow]; exact hheld))]
    have hudev : (u.modAxis a AxisBlock.slowed).dev ≠ .failed := by
      rw [State.modAxis_dev, hretired]
      split <;> exact hdev
    have hself := haltCore_axis_same a .rateJump g.record.id (u.modAxis a AxisBlock.slowed)
    obtain ⟨lr, hhalted⟩ := ((s.axis a).expire.retires g).slowed.haltedBy_eq .rateJump
    rw [hslow, hhalted] at hself
    refine ⟨_, hhalt, ?_, ?_, ?_, ?_, ?_, ?_, ?_, ?_, fun hreport hgeneral hrequest => ?_,
      ⟨_, haltCore_faultSlot hudev a .rateJump g.record.id, rfl, rfl, ?_⟩, fun b hb => ?_⟩
    case refine_9 =>
      have hbare := haltCore_reports_bare hudev (a := a) (by rw [hslow]; rfl) (by rw [hslow]; exact hheld)
        (by rw [hslow]; exact hrequest) .rateJump g.record.id
      rw [hbare.entry_of_not_mem (by simpa using faultSlot_ne_general hgeneral), State.modAxis_entry, hretired, if_pos hreport,
        State.withReport_entry_same]
    case refine_10 =>
      change (AxisBlock.staging ((u.modAxis a AxisBlock.slowed).axis a)).length = _
      rw [hslow]
      rfl
    case refine_11 =>
      rw [haltCore_axis_ne hb, State.modAxis_axis_ne _ _ hb, hretired]
      have hother : ((s.expired a).modAxis a (AxisBlock.retires g)).axis b = s.axis b :=
        (State.modAxis_axis_ne _ _ hb).trans (s.expired_axis_ne hb)
      split <;> exact hother
    all_goals simp only [hself]
    all_goals rfl

/-! ### O37: the counts of a DWELL and a WAIT -/

/-- An active segment after one more expiry. -/
def Segment.counted (g : Segment) : Segment := { g with expiries := g.expiries + 1 }

/-- The state at an expiry that counts in the active segment. -/
def State.counts (s : State) (a : Axis) : State := (s.expired a).modAxis a AxisBlock.countExpiry

theorem State.counts_axis (s : State) (a : Axis) : (s.counts a).axis a = (s.axis a).expire.countExpiry := by
  rw [State.counts, State.modAxis_axis_same, State.expired_axis]

section
variable {s : State} {a : Axis} {g : Segment} (hactive : (s.axis a).active = some g)
include hactive

theorem State.counts_active : ((s.counts a).axis a).active = some g.counted := by
  rw [State.counts_axis, AxisBlock.countExpiry]
  have hexpired : (s.axis a).expire.active = some g := hactive
  rw [hexpired]
  rfl

theorem dwellWork_expired {n : Nat} {sync : Option GroupIx} (hbody : g.record.body = .dwell n sync) :
    dwellWork a (s.expired a) =
      if n ≤ g.expiries + 1 then retireThen a Segment.words (becomeIdle a) (s.counts a) else s.counts a := by
  have hcounts := State.counts_active hactive
  obtain ⟨⟨tag, report, body⟩, entry, issued, overrun, expiries⟩ := g
  subst hbody
  rw [State.counts] at hcounts
  simp only [dwellWork, hcounts, Segment.counted]
  rfl

theorem waitWork_expired {n : Nat} {w : Wait} (hbody : g.record.body = .wait w) (htimeout : w.timeout = some n) :
    waitWork a (s.expired a) =
      if n ≤ g.expiries + 1 then becomeIdle a (retireActive a .timeout none Segment.words (s.counts a)) else s.counts a := by
  have hcounts := State.counts_active hactive
  obtain ⟨⟨tag, report, body⟩, entry, issued, overrun, expiries⟩ := g
  obtain ⟨src, policy, timeout, ref⟩ := w
  subst hbody htimeout
  rw [State.counts] at hcounts
  simp only [waitWork, hcounts, Segment.counted]
  rfl

end

/-- The state in which an axis whose record has completed at its expiry is at rest, before the record's report. -/
def State.countEnded (s : State) (a : Axis) (g : Segment) : State :=
  s.modAxis a fun x => { x.expire with st := .idle, active := none, lastRetired := some g.record.id }

/-- The retirement of a record whose count is complete, and the consideration of the queue that follows. -/
theorem becomeIdle_counted {s : State} {a : Axis} {g : Segment} (h : s.Ready) (hactive : (s.axis a).active = some g) (st : Status)
    (w : Segment → Word × Word) :
    becomeIdle a (retireActive a st none w (s.counts a)) = considerQueue a (s.axis a).staging.length (
      if (g.record.report || st != .ok) = true then (s.countEnded a g).withReport g.entry
        (axisReport s a .segment st none g.record.id 0 0 (w g.counted).1 (w g.counted).2)
      else (s.countEnded a g).setEntry g.entry .free) := by
  have hcounts := State.counts_active hactive
  have hended : ((s.counts a).modAxis a (AxisBlock.retires g.counted)).modAxis a (fun x => { x with st := .idle })
      = s.countEnded a g := by
    rw [State.counts, State.expired, State.modAxis_modAxis, State.modAxis_modAxis, State.modAxis_modAxis]
    rfl
  have hreport : axisReport (s.counts a) a .segment st none g.record.id 0 0 (w g.counted).1 (w g.counted).2
      = axisReport s a .segment st none g.record.id 0 0 (w g.counted).1 (w g.counted).2 :=
    axisReport_congr (s := s) (t := s.counts a) rfl (by rw [State.counts_axis]; rfl) (by rw [State.counts_axis]; rfl) ..
  have hstaging : (((s.counts a).modAxis a (AxisBlock.retires g.counted)).axis a).staging = (s.axis a).staging := by
    rw [State.modAxis_axis_same, State.counts_axis]
    rfl
  rw [becomeIdle_eq]
  by_cases hfills : (g.record.report || st != .ok) = true
  · rw [retireActive_fills hcounts (Ready.not_failed (s := s.counts a) h) hfills, if_pos hfills, State.withReport_modAxis, hended,
      State.withReport_axis, hstaging]
    exact congrArg (fun r => considerQueue a _ ((s.countEnded a g).withReport g.entry r)) hreport
  · have hboth : g.record.report = false ∧ st = .ok := by simpa using hfills
    obtain ⟨hflag, rfl⟩ := hboth
    rw [retireActive_releases hcounts h.2 hflag, if_neg hfills, State.setEntry_modAxis, hended, State.setEntry_axis, hstaging]
    rfl

/-- What the report of a record or the release of its entry leaves. -/
theorem ended_keeps {u v : State} {e : Fin 24} (h : v = u.setEntry e .free ∨ ∃ r, v = u.withReport e r) :
    v.dev = u.dev ∧ v.interp = u.interp ∧ (∀ g, v.group g = u.group g) ∧ ∀ b, v.axis b = u.axis b := by
  obtain rfl | ⟨r, rfl⟩ := h <;> exact ⟨rfl, rfl, fun _ => rfl, fun _ => rfl⟩

/-- Settles O37. -/
theorem dwellAndWaitCountExpiries : Obligations.DwellAndWaitCountExpiries := by
  intro s a g n sync w x ended rested h hnone hactive hin hkind
  have hended : s.countEnded a g = ended := by
    refine State.modAxis_congr _ _ ?_
    rw [AxisBlock.expire_eq]
    rfl
  have hform : rested = ended.setEntry g.entry .free ∨ ∃ r, rested = ended.withReport g.entry r := by
    by_cases hreleased : x.st = .dwell ∧ g.record.report = false
    · exact .inl (if_pos hreleased)
    · exact .inr ⟨_, if_neg hreleased⟩
  -- in either state: below the count the count rises, at the count the record retires and the queue is considered
  have hwork : x.st ≠ .off ∧ x.st ≠ .halted ∧
      (g.expiries + 1 < n → stateWork a (s.expired a) = s.counts a) ∧
      (g.expiries + 1 = n → stateWork a (s.expired a) = considerQueue a x.staging.length rested) := by
    obtain ⟨hst, hbody⟩ | ⟨hst, hbody, htimeout⟩ := hkind
    · have hstate : ((s.expired a).axis a).st = .dwell := by rw [State.expired_axis]; exact hst
      refine ⟨by rw [hst]; decide, by rw [hst]; decide, fun hlt => ?_, fun heq => ?_⟩
      · rw [stateWork_dwell hstate, dwellWork_expired hactive hbody, if_neg (by omega)]
      · have hwords : Segment.words g.counted = (BitVec.ofNat 32 n, 0) := by simp only [Segment.words, Segment.counted, hbody, heq]
        rw [stateWork_dwell hstate, dwellWork_expired hactive hbody, if_pos (by omega),
          retireThen_of_waiting (s := s.counts a) _ _ _ h.2, becomeIdle_counted h hactive, hended, hwords]
        refine congrArg (considerQueue a _) ?_
        change _ = if x.st = .dwell ∧ g.record.report = false then _ else _
        simp only [hst]
        cases g.record.report <;> rfl
    · have hstate : ((s.expired a).axis a).st = .waitEvent := by rw [State.expired_axis]; exact hst
      refine ⟨by rw [hst]; decide, by rw [hst]; decide, fun hlt => ?_, fun heq => ?_⟩
      · rw [stateWork_waitEvent hstate, waitWork_expired hactive hbody htimeout, if_neg (by omega)]
      · have hwords : Segment.words g.counted = (0, 0) := by simp only [Segment.words, Segment.counted, hbody]
        rw [stateWork_waitEvent hstate, waitWork_expired hactive hbody htimeout, if_pos (by omega),
          becomeIdle_counted h hactive, hended, hwords]
        refine congrArg (considerQueue a _) ?_
        change _ = if x.st = .dwell ∧ g.record.report = false then _ else _
        simp only [hst]
        cases g.record.report <;> rfl
  obtain ⟨hoff, hhalted, hbelow, hends⟩ := hwork
  have hexec := exec_expiry_passes h hnone hoff hhalted hin
  have hgoes := fun heq : g.expiries + 1 = n => hexec.trans (congrArg _ (hends heq))
  obtain ⟨hdev, hinterp, hgroup, haxis⟩ := ended_keeps hform
  have hrested : rested.axis a = { s.axis a with
      timer := some (50 * x.cfg.updatePeriod), setupMark := false, st := .idle, active := none
      lastRetired := some { tag := g.record.tag, kind := g.record.kind } } := (haxis a).trans (State.modAxis_axis_same ..)
  refine ⟨fun hlt => ?_, fun heq => exec_expiry_goesOn (hgoes heq) ?_ ?_, fun heq hempty => ?_⟩
  · rw [hexec, hbelow hlt]
    refine congrArg _ ((State.modAxis_modAxis ..).trans (State.modAxis_congr _ _ ?_))
    rw [AxisBlock.countExpiry, AxisBlock.expire_eq]
    simp only [show (s.axis a).active = some g from hactive]
    rfl
  · exact ⟨⟨hdev.trans h.1, hinterp.trans h.2⟩, fun k => by rw [hgroup]; exact hnone k, by rw [hrested],
      by rw [hrested]; exact hin, by rw [hrested], by rw [hrested]⟩
  · rw [hrested]
  · rw [hgoes heq, hempty]
    rfl

end Sys2Proof.Machine
end

section
/-! PROOFS. The rest instant of a stop request, and O36: an expiry in RAMP_DOWN. -/

namespace Sys2Proof.Machine
open Sys2Proof

/-! ### The rest instant -/

/-- The completion of a stop request (R51). -/
def restReport (s : State) (a : Axis) (q : StopReq) : Report :=
  controlReport s .control .ok none q.id (some a) (s.axis a).staging.length (s.fetcher (axisRing a)).tail (s.axis a).lastTag
    q.superseded

/-- The reports of a rest instant, in the order of R51. -/
def restReports (s : State) (a : Axis) (q : StopReq) : List (Fin 24 × Report) :=
  activeReport s a q.kind.status none Segment.words ++ heldReport s a q.kind.status none ++ [(q.entry, restReport s a q)]

/-- A rest instant before the departure from a group. -/
def restCore (a : Axis) (q : StopReq) (s : State) : State :=
  let s1 := retireCurrent a q.kind.status none s
  let s2 := (s1.modAxis a fun x => { x with staging := [] }).modFetcher (axisRing a) Fetcher.setHead
  (fill q.entry (controlReport s2 .control .ok none q.id (some a) (s1.axis a).staging.length (s2.fetcher (axisRing a)).head
    (s1.axis a).lastTag q.superseded) s2).modAxis a fun x => { x with stopReq := none, st := .idle }

theorem restInstant_eq (a : Axis) (q : StopReq) (s : State) :
    restInstant a q s = depart (s.axis a).waitsOn a (restCore a q s) := rfl

theorem AxisBlock.waitsOn_of_not_waitSync {x : AxisBlock} (h : x.st ≠ .waitSync ∨ x.held = none) : x.waitsOn = none := by
  rw [AxisBlock.waitsOn]
  split
  next hst =>
    obtain h | h := h
    · exact absurd hst h
    · rw [h]
      rfl
  next => rfl

theorem restInstant_of_not_waitSync {s : State} {a : Axis} (h : (s.axis a).st ≠ .waitSync ∨ (s.axis a).held = none) (q : StopReq) :
    restInstant a q s = restCore a q s := by
  rw [restInstant_eq, AxisBlock.waitsOn_of_not_waitSync h]
  rfl

theorem restCore_axis (a : Axis) (q : StopReq) (s : State) (b : Axis) :
    (restCore a q s).axis b = if b = a then (s.axis a).rested else s.axis b := by
  by_cases h : b = a
  · subst h
    simp [restCore, retireCurrent_axis, AxisBlock.rested]
  · simp [restCore, State.modAxis_axis, retireCurrent_axis, h]

theorem restCore_group (a : Axis) (q : StopReq) (s : State) (g : GroupIx) : (restCore a q s).group g = s.group g := by
  simp [restCore]

theorem restCore_fetchers (a : Axis) (q : StopReq) (s : State) :
    (restCore a q s).fetchers = (s.modFetcher (axisRing a) Fetcher.setHead).fetchers := by
  simp [restCore, State.modFetcher]

theorem restCore_fetcher (a : Axis) (q : StopReq) (s : State) :
    (restCore a q s).fetcher (axisRing a) = (s.fetcher (axisRing a)).setHead := by
  rw [State.fetcher, restCore_fetchers]
  exact State.modFetcher_fetcher_same ..

theorem restCore_rest (a : Axis) (q : StopReq) (s : State) : SameRest s (restCore a q s) := by
  unfold restCore
  apply SameRest.modAxis
  apply SameRest.fill
  apply SameRest.modFetcher
  apply SameRest.modAxis
  exact (retireCurrent_seq ..).rest

theorem StopKind.status_ne_ok (k : StopKind) : k.status ≠ .ok := by cases k <;> decide

/-- What a rest instant leaves in the buffer (R51). -/
theorem restCore_reports {s : State} (hdev : s.dev ≠ .failed) (a : Axis) (q : StopReq) :
    Reports s (restCore a q s) (restReports s a q) := by
  obtain ⟨lr, hboth⟩ := (s.axis a).bothRetired_eq
  have hretire := retireCurrent_reports hdev a q.kind.status_ne_ok none
  -- the records retired
  generalize hs1 : retireCurrent a q.kind.status none s = s1 at hretire
  have hrest1 : SameRest s s1 := hs1 ▸ (retireCurrent_seq a q.kind.status none s).rest
  have hfetch1 : s1.fetchers = s.fetchers := by rw [← hs1, retireCurrent_fetchers]
  have h1 : s1.axis a = { s.axis a with active := none, held := none, lastRetired := lr } := by
    rw [← hs1, retireCurrent_axis, if_pos rfl, hboth]
  -- the queue flushed and the head set
  generalize hs2 : (s1.modAxis a fun x => { x with staging := [] }).modFetcher (axisRing a) Fetcher.setHead = s2
  have hcore : restCore a q s = (fill q.entry (controlReport s2 .control .ok none q.id (some a) (s1.axis a).staging.length
      (s2.fetcher (axisRing a)).head (s1.axis a).lastTag q.superseded) s2).modAxis a fun x => { x with stopReq := none, st := .idle } := by
    rw [← hs2, ← hs1, restCore]
  have hhead : (s2.fetcher (axisRing a)).head = (s.fetcher (axisRing a)).tail := by
    rw [← hs2, State.modFetcher_fetcher_same, Fetcher.setHead_head, State.modAxis_fetcher, State.fetcher, hfetch1]
    rfl
  have h2 : (s2.axis a).cmdPos = (s.axis a).cmdPos ∧ (s2.axis a).encPos = (s.axis a).encPos := by
    rw [← hs2, State.modFetcher_axis, State.modAxis_axis_same, h1]
    exact ⟨rfl, rfl⟩
  have htime : s2.time = s.time := by
    rw [← hs2]
    exact hrest1.time
  have hreport : controlReport s2 .control .ok none q.id (some a) (s1.axis a).staging.length (s2.fetcher (axisRing a)).head
      (s1.axis a).lastTag q.superseded = restReport s a q := by
    simp only [controlReport, restReport, AxisBlock.lastTag, hhead, h2, htime, h1, Option.map_some, Option.getD_some]
  have hdev2 : s2.dev ≠ .failed := by
    rw [← hs2, State.modFetcher_dev, State.modAxis_dev, hrest1.dev]
    exact hdev
  rw [hcore, hreport]
  exact (hretire.then (by rw [← hs2]; rfl) (by rw [← hs2]; rfl)).trans ((Reports.fill hdev2 ..).then rfl rfl)

/-- An axis with an active segment after its rest instant. -/
theorem AxisBlock.rested_of_active {x : AxisBlock} {g : Segment} (hactive : x.active = some g) (hheld : x.held = none) :
    x.rested = { x with active := none, lastRetired := some g.record.id, staging := [], stopReq := none, st := .idle } := by
  have hretired : x.retired = { x with active := none, lastRetired := some g.record.id } := by simp only [AxisBlock.retired, hactive]
  have hkept : AxisBlock.heldRetired { x with active := none, lastRetired := some g.record.id }
      = { x with active := none, lastRetired := some g.record.id } := by simp only [AxisBlock.heldRetired, hheld]
  rw [AxisBlock.rested, hretired, hkept]

/-! ### Going to OFF at the end of a ramp -/

/-- Where no axis moves after a change that kept the positions and the configurations, all axes have gone to OFF. -/
theorem allWentOff {s u : State} (hdev : s.dev = .quiescing ∨ s.dev = .failed) (hudev : u.dev = s.dev)
    (hrest : ∀ b, (u.axis b).st.moving = false)
    (hkeeps : ∀ b, (u.axis b).cmdPos = (s.axis b).cmdPos ∧ (u.axis b).encPos = (s.axis b).encPos ∧ (u.axis b).cfg = (s.axis b).cfg)
    (hoff : ∀ b, (s.axis b).st ≠ .off → (u.axis b).st ≠ .off) : AllWentOff s (offIfAtRest u) := by
  refine ⟨(offIfAtRest_seq u).rest.dev.trans hudev, fun b => ?_⟩
  obtain ⟨hcmd, henc, hcfg⟩ := hkeeps b
  obtain ⟨hdisarmed, hcmd', henc', hcfg'⟩ := (u.axis b).toOff_disarm_keeps
  rw [offIfAtRest_axis_of_rest (hudev ▸ hdev) hrest]
  refine ⟨AxisBlock.toOff_st _, hdisarmed, hcmd'.trans hcmd, henc'.trans henc, hcfg'.trans hcfg, fun hb => ?_⟩
  rw [AxisBlock.toOff_of_ne (hoff b hb)]
  exact ⟨rfl, rfl, rfl, rfl, rfl, rfl, rfl⟩

/-- The change of one axis to IDLE, from which all go to OFF where the others are at rest. -/
theorem allWentOff_of_idle {s u : State} {a : Axis} (hdev : s.dev = .quiescing ∨ s.dev = .failed) (hudev : u.dev = s.dev)
    (halone : ∀ b, b ≠ a → (s.axis b).st.moving = false) (hother : ∀ b, b ≠ a → u.axis b = s.axis b)
    (hidle : (u.axis a).st = .idle)
    (hkeeps : (u.axis a).cmdPos = (s.axis a).cmdPos ∧ (u.axis a).encPos = (s.axis a).encPos ∧ (u.axis a).cfg = (s.axis a).cfg) :
    AllWentOff s (offIfAtRest u) := by
  refine allWentOff hdev hudev (fun b => ?_) (fun b => ?_) fun b hb => ?_
  all_goals by_cases h : b = a
  · rw [h, hidle]
    rfl
  · rw [hother b h, halone b h]
  · rw [h]
    exact hkeeps
  · rw [hother b h]
    exact ⟨rfl, rfl, rfl⟩
  · rw [h, hidle]
    decide
  · rwa [hother b h]

/-- While another axis moves none goes to OFF. -/
theorem offIfAtRest_of_not_alone {s u : State} {a : Axis} (h : ¬ ∀ b, b ≠ a → (s.axis b).st.moving = false)
    (hother : ∀ b, b ≠ a → u.axis b = s.axis b) : offIfAtRest u = u := by
  obtain ⟨b, hb⟩ := not_forall.mp h
  obtain ⟨hne, hmoves⟩ := Classical.not_imp.mp hb
  exact offIfAtRest_of_moving (b := b) (by rw [hother b hne]; exact Bool.not_eq_false _ ▸ hmoves)

/-! ### The ramp -/

/-- The state at an expiry that ends a ramp. -/
def State.ramped (s : State) (a : Axis) : State := s.modAxis a fun x => x.expire.slowed

theorem State.ramped_axis (s : State) (a : Axis) : (s.ramped a).axis a = (s.axis a).expire.slowed := State.modAxis_axis_same ..

theorem State.ramped_axis_ne (s : State) {a b : Axis} (h : b ≠ a) : (s.ramped a).axis b = s.axis b := State.modAxis_axis_ne _ _ h

/-- The period that an expiry in RAMP_DOWN opens (R43). -/
theorem AxisBlock.rampPeriod_expire {x : AxisBlock} (h : x.decel < x.rate) :
    x.expire.rampPeriod =
      let rate := x.rate - x.decel
      let steps := (x.frac + rate) / 65536
      { x with
        timer := some (50 * x.cfg.updatePeriod), setupMark := false, rate := rate, frac := (x.frac + rate) % 65536
        remaining := x.remaining - steps, periodSteps := steps
        schedule := x.schedule ++ (List.range steps).map fun k => k * (50 * x.cfg.updatePeriod) / steps } := by
  have hrate : x.expire.rate - x.expire.decel ≠ 0 := by
    change x.rate - x.decel ≠ 0
    omega
  refine (if_neg hrate).trans ?_
  rw [AxisBlock.handOver, AxisBlock.expire_eq, AxisBlock.pulseTimes_of_clear rfl]

theorem AxisBlock.rampPeriod_ends {x : AxisBlock} (h : x.rate ≤ x.decel) : x.expire.rampPeriod = x.expire.slowed :=
  if_pos (Nat.sub_eq_zero_of_le h)

theorem rampWork_runs {s : State} {a : Axis} (h : (s.axis a).decel < (s.axis a).rate) :
    rampWork a (s.expired a) = s.modAxis a fun x => x.expire.rampPeriod := by
  have hmod : (s.expired a).modAxis a AxisBlock.rampPeriod = s.modAxis a fun x => x.expire.rampPeriod := State.modAxis_modAxis ..
  refine (if_neg ?_).trans hmod
  rw [hmod, State.modAxis_axis_same, AxisBlock.rampPeriod_expire h]
  exact Nat.ne_of_gt (Nat.sub_pos_of_lt h)

theorem rampWork_ends {s : State} {a : Axis} (h : (s.axis a).rate ≤ (s.axis a).decel) :
    rampWork a (s.expired a) = rampRest a (s.ramped a) := by
  have hmod : (s.expired a).modAxis a AxisBlock.rampPeriod = s.ramped a :=
    (State.modAxis_modAxis ..).trans (State.modAxis_congr _ _ (AxisBlock.rampPeriod_ends h))
  refine (if_pos ?_).trans (congrArg _ hmod)
  rw [hmod, State.ramped_axis]
  rfl

theorem rampRest_failed {s : State} {a : Axis} (h : s.dev = .failed) :
    rampRest a s = s.modAxis a fun x => { x with st := .idle, active := none } := if_pos h

theorem rampRest_requested {s : State} {a : Axis} {q : StopReq} (h : s.dev ≠ .failed) (hq : (s.axis a).stopReq = some q) :
    rampRest a s = restInstant a q s := by
  rw [rampRest, if_neg h]
  simp only [hq]

theorem rampRest_quiesced {s : State} {a : Axis} (h : s.dev ≠ .failed) (hq : (s.axis a).stopReq = none) :
    rampRest a s = (retireCurrent a .stopped none s).modAxis a fun x => { x with st := .idle } := by
  rw [rampRest, if_neg h]
  simp only [hq]

/-- The work of an expiry in RAMP_DOWN, and what follows it. -/
theorem exec_expiry_ramp {s : State} {a : Axis} (hi : s.interp = .waiting) (hnone : ∀ g, (s.group g).st ≠ .gathering)
    (hst : (s.axis a).st = .rampDown)
    (hin : s.dev = .failed ∨ (s.axis a).cfg.countsPerStep = 0 ∨ (s.axis a).acc.natAbs ≤ (s.axis a).cfg.followWindow) :
    exec (.updatePeriodExpiry a) s = .next (offIfAtRest (rampWork a (s.expired a))) := by
  have hoff : (s.axis a).st ≠ .off := by rw [hst]; decide
  have hramp : ((s.expired a).axis a).st = .rampDown := by rw [State.expired_axis]; exact hst
  have hwork : expiryWork a (s.expired a) = rampWork a (s.expired a) := by
    by_cases hfail : s.dev = .failed
    · rw [expiryWork, if_pos (show (s.expired a).dev = .failed from hfail), if_pos hramp]
    · rw [expiryWork_passes (s := s.expired a) hfail (by rw [hramp]; decide)
        (by rw [State.expired_axis]; exact hin.resolve_left hfail), stateWork_rampDown hramp]
  have hkept : (rampWork a (s.expired a)).interp = .waiting := (rampWork_seq a hramp).rest.interp.trans hi
  rw [exec_expiry_of_none hoff hnone, hwork, settle_of_waiting hkept]

/-- A quiesced or pending axis's segment at the end of its ramp. -/
theorem activeReport_ramped {s : State} {a : Axis} {g : Segment} (h : (s.axis a).active = some g) (st : Status) :
    activeReport (s.ramped a) a st none Segment.words =
      [(g.entry, axisReport s a .segment st none g.record.id 0 0 g.words.1 g.words.2)] := by
  have hactive : (s.axis a).expire.slowed.active = some g := h
  simp only [activeReport, State.ramped_axis, hactive]
  rw [axisReport_congr (s := s) (t := s.ramped a) rfl (by rw [State.ramped_axis]; rfl) (by rw [State.ramped_axis]; rfl)]

theorem heldReport_ramped {s : State} {a : Axis} (h : (s.axis a).held = none) (st : Status) :
    heldReport (s.ramped a) a st none = [] := by
  have hheld : (s.axis a).expire.slowed.held = none := h
  simp only [heldReport, State.ramped_axis, hheld]

theorem restReport_ramped (s : State) (a : Axis) (q : StopReq) : restReport (s.ramped a) a q =
    ctlReport s (some a) q.tag q.kind.code .ok (s.axis a).staging.length (s.fetcher (axisRing a)).tail
      (((s.axis a).staging.map AxisRecord.tag).getLast?.getD 0) q.superseded := by
  rw [← AxisBlock.lastTag_eq]
  simp only [restReport, controlReport, ctlReport, State.ramped_axis, Option.map_some, Option.getD_some]
  rfl

theorem Segment.words_of_move {g : Segment} {m : Move} (h : g.record.body = .move m) :
    g.words = (BitVec.ofNat 32 g.issued, BitVec.ofNat 32 g.overrun) := by
  simp only [Segment.words, h]

/-- A head set leaves no fetch in flight uncancelled. -/
theorem setHead_cancel (f : Fetcher) : f.setHead.cancel = f.setHead := by
  simp [Fetcher.setHead, Fetcher.cancel, Option.map_map, Function.comp_def]

/-- Settles O36. -/
theorem rampExpirySubtracts : Obligations.RampExpirySubtracts := by
  intro s a g x rate steps inWindow stopped rests alone
  refine ⟨fun m hm => Segment.words_of_move hm, fun hdev hi hnone hst hactive hheld hin => ?_⟩
  have hexec := exec_expiry_ramp hi hnone hst hin
  have hramped : s.ramped a = s.modAxis a fun x => x.expire.slowed := rfl
  -- the state after the ramp, for each way it ends
  refine ⟨fun hlt => ?_, fun q hfail hle hq => ?_, fun hq hle hnoreq => ?_, fun hfail hle => ?_⟩
  · rw [hexec, rampWork_runs hlt, offIfAtRest_of_moving (b := a)]
    · exact congrArg _ (State.modAxis_congr _ _ (AxisBlock.rampPeriod_expire hlt))
    · rw [State.modAxis_axis_same, AxisBlock.rampPeriod_expire hlt]
      exact (AxisState.moving_iff _).mpr (.inr hst)
  · have hreq : ((s.ramped a).axis a).stopReq = some q := by rw [State.ramped_axis]; exact hq
    have hnot : ((s.ramped a).axis a).held = none := by rw [State.ramped_axis]; exact hheld
    rw [rampWork_ends hle, rampRest_requested (s := s.ramped a) hfail hreq, restInstant_of_not_waitSync (.inr hnot)] at hexec
    have hreports := restCore_reports (s := s.ramped a) hfail a q
    rw [restReports, activeReport_ramped hactive, heldReport_ramped hheld, restReport_ramped] at hreports
    have hself := restCore_axis a q (s.ramped a) a
    have hother : ∀ b, b ≠ a → (restCore a q (s.ramped a)).axis b = s.axis b := fun b hb => by
      rw [restCore_axis, if_neg hb, State.ramped_axis_ne _ hb]
    have hactive' : (s.axis a).expire.slowed.active = some g := hactive
    rw [if_pos rfl, State.ramped_axis, AxisBlock.rested_of_active hactive' hheld, AxisBlock.expire_eq] at hself
    have hfetch := restCore_fetcher a q (s.ramped a)
    have hrest := restCore_rest a q (s.ramped a)
    generalize restCore a q (s.ramped a) = u at hexec hreports hself hother hfetch hrest
    refine ⟨_, hexec, ?_, ?_, fun hne => ?_, ?_, fun hkeeps => ?_, fun hquiesce halone => ?_⟩
    · exact offIfAtRest_fetcher (P := fun f => f = (s.fetcher (axisRing a)).setHead) (fun f hf => by rw [hf, setHead_cancel]) _ hfetch
    · rw [offIfAtRest_fillQueue, hreports.queue]
      rfl
    · rw [offIfAtRest_entry, hreports.entry_of_split (l := []) (k := [_]) (by simpa using hne.symm)]
      cases q.kind <;> rfl
    · rw [offIfAtRest_entry, hreports.entry_last]
    · have hstays : offIfAtRest u = u := by
        obtain honline | hnotalone := hkeeps
        · refine offIfAtRest_of_dev ?_
          rw [hrest.dev]
          change ¬ (s.dev = .quiescing ∨ s.dev = .failed)
          rw [honline]
          decide
        · exact offIfAtRest_of_not_alone hnotalone hother
      rw [hstays]
      exact ⟨hself, hother⟩
    · exact allWentOff_of_idle (.inl hquiesce) hrest.dev halone hother (by rw [hself]) (by rw [hself]; exact ⟨rfl, rfl, rfl⟩)
  · have hfail : (s.ramped a).dev ≠ .failed := by
      change s.dev ≠ .failed
      rw [hq]
      decide
    have hreq : ((s.ramped a).axis a).stopReq = none := by rw [State.ramped_axis]; exact hnoreq
    have hactive' : ((s.ramped a).axis a).active = some g := by rw [State.ramped_axis]; exact hactive
    rw [rampWork_ends hle, rampRest_quiesced hfail hreq] at hexec
    have hretire : (retireCurrent a .stopped none (s.ramped a)).modAxis a (fun x => { x with st := .idle })
        = (s.modAxis a fun x => { rests x with
            lastRetired := some { tag := g.record.tag, kind := g.record.kind } }).withReport g.entry stopped := by
      have hheld' : (((s.ramped a).modAxis a (AxisBlock.retires g)).axis a).held = none := by
        rw [State.modAxis_axis_same, State.ramped_axis]
        exact hheld
      have hreport := axisReport_congr (s := s) (t := s.ramped a) (a := a) rfl (by rw [State.ramped_axis]; rfl)
        (by rw [State.ramped_axis]; rfl) .segment .stopped none g.record.id 0 0 g.words.1 g.words.2
      rw [retireCurrent, retireActive_fills hactive' hfail (by simp), hreport, retireHeld, State.withReport_axis, hheld']
      refine (State.withReport_modAxis ..).trans (congrArg (State.withReport · g.entry stopped) ?_)
      rw [hramped, State.modAxis_modAxis, State.modAxis_modAxis]
      refine State.modAxis_congr _ _ ?_
      rw [AxisBlock.expire_eq]
      rfl
    rw [hretire] at hexec
    have hother : ∀ b, b ≠ a → ((s.modAxis a fun x => { rests x with
        lastRetired := some { tag := g.record.tag, kind := g.record.kind } }).withReport g.entry stopped).axis b = s.axis b :=
      fun b hb => (State.withReport_axis ..).trans (State.modAxis_axis_ne _ _ hb)
    refine ⟨fun hnotalone => ?_, fun halone => ⟨_, hexec, ?_, ?_, ?_, fun e he => ?_⟩⟩
    · rw [hexec, offIfAtRest_of_not_alone hnotalone hother]
    · refine allWentOff_of_idle (.inl hq) rfl halone hother ?_ ?_
      all_goals rw [State.withReport_axis, State.modAxis_axis_same]
      exact ⟨rfl, rfl, rfl⟩
    · rw [offIfAtRest_entry, State.withReport_entry_same]
    · rw [offIfAtRest_fillQueue]
      rfl
    · rw [offIfAtRest_entry, State.withReport_entry, if_neg he]
      rfl
  · have hrests : (s.ramped a).modAxis a (fun x => { x with st := .idle, active := none }) = s.modAxis a rests := by
      rw [hramped, State.modAxis_modAxis]
      refine State.modAxis_congr _ _ ?_
      rw [AxisBlock.expire_eq]
      rfl
    rw [rampWork_ends hle, rampRest_failed (s := s.ramped a) hfail, hrests] at hexec
    refine ⟨fun hnotalone => ?_, fun halone => ⟨_, hexec, ?_, ?_, ?_⟩⟩
    · rw [hexec, offIfAtRest_of_not_alone hnotalone fun b hb => State.modAxis_axis_ne _ _ hb]
    · refine allWentOff_of_idle (.inr hfail) rfl halone (fun b hb => State.modAxis_axis_ne _ _ hb) ?_ ?_
      all_goals rw [State.modAxis_axis_same]
      exact ⟨rfl, rfl, rfl⟩
    · rw [offIfAtRest_eq]
      rfl
    · rw [offIfAtRest_fillQueue]
      rfl

end Sys2Proof.Machine
end

section
/-! PROOFS. The consideration of the staging queue, and O40, O41 and O43. -/

namespace Sys2Proof.Machine
open Sys2Proof

/-! ### The consideration of the queue -/

section
variable {s : State} {a : Axis} {r : AxisRecord} {rest : List AxisRecord} (n : Nat) (hdev : s.dev = .online)
  (hst : (s.axis a).st = .idle) (hstaging : (s.axis a).staging = r :: rest)
include hdev hst hstaging

/-- An invalid front record halts the axis (R8). -/
theorem considerQueue_invalid (hbad : frontInvalid (s.axis a).cfg r.body = true) :
    considerQueue a (n + 1) s = haltAxis a .recordInvalid r.id s := by
  simp only [considerQueue, hdev, hst, hstaging, hbad, decide_true, Bool.and_self, if_true]

/-- A tagged one is judged (Table 4-3). -/
theorem considerQueue_tagged (hok : frontInvalid (s.axis a).cfg r.body = false) {g : GroupIx} (hsync : r.body.sync? = some g) :
    considerQueue a (n + 1) s = judgeTagged a g r s := by
  simp only [considerQueue, hdev, hst, hstaging, hok, hsync, decide_true, Bool.and_self, if_true, Bool.false_eq_true, if_false]

/-- An untagged one waits where no general entry is FREE (R6). -/
theorem considerQueue_waits (hok : frontInvalid (s.axis a).cfg r.body = false) (hsync : r.body.sync? = none)
    (hfree : s.freeGeneral = none) : considerQueue a (n + 1) s = s := by
  simp only [considerQueue, hdev, hst, hstaging, hok, hsync, takeGeneral, hfree, Option.map_none, decide_true, Bool.and_self,
    if_true, Bool.false_eq_true, if_false]

/-- Otherwise it is activated with that entry (R7). -/
theorem considerQueue_activates (hok : frontInvalid (s.axis a).cfg r.body = false) (hsync : r.body.sync? = none) {e : Fin 24}
    (hfree : s.freeGeneral = some e) : considerQueue a (n + 1) s =
      if (runActivated a r (activate a r e (s.setEntry e (.reserved (.axisRecord a))))).2 = true then
        considerQueue a n
          (acceptAtRelease (some a) (runActivated a r (activate a r e (s.setEntry e (.reserved (.axisRecord a))))).1)
      else (runActivated a r (activate a r e (s.setEntry e (.reserved (.axisRecord a))))).1 := by
  simp only [considerQueue, hdev, hst, hstaging, hok, hsync, takeGeneral, hfree, Option.map_some, decide_true, Bool.and_self,
    if_true, Bool.false_eq_true, if_false]

end

theorem State.expired_freeGeneral (s : State) (a : Axis) : (s.expired a).freeGeneral = s.freeGeneral := rfl

/-- An expiry of an axis at rest within its window considers the queue, where no gathering group counts. -/
theorem exec_expiry_idle_untimed {s : State} {a : Axis} (h : s.Ready)
    (htimed : ∀ g, (s.group g).st = .gathering → (s.group g).timeout = none) (hst : (s.axis a).st = .idle)
    (hin : (s.axis a).cfg.countsPerStep = 0 ∨ (s.axis a).acc.natAbs ≤ (s.axis a).cfg.followWindow) :
    exec (.updatePeriodExpiry a) s = .next (considerQueue a (s.axis a).staging.length (s.expired a)) := by
  have hoff : (s.axis a).st ≠ .off := by rw [hst]; decide
  have hwork : expiryWork a (s.expired a) = considerQueue a (s.axis a).staging.length (s.expired a) := by
    rw [expiryWork_passes (Ready.not_failed (s := s.expired a) h) (by rw [State.expired_axis]; exact hst ▸ (by decide))
      (by rwa [State.expired_axis]), stateWork_idle (by rw [State.expired_axis]; exact hst), State.expired_axis]
    rfl
  have hnone : timedGroups a s = [] := List.eq_nil_iff_forall_not_mem.mpr fun g hg => by
    obtain ⟨hgather, htimeout, -⟩ := mem_timedGroups.mp hg
    rw [htimed g hgather] at htimeout
    exact absurd htimeout (by decide)
  have hsettle := settle_expiryWork h hoff
  rw [hwork] at hsettle
  change Host.Outcome.next (expiryNow a s) = _
  rw [expiryNow, if_neg hoff, hnone]
  change Host.Outcome.next (settle (countTimeouts [] (expiryWork a (s.expired a)))) = _
  rw [countTimeouts_of_none (by simp), hwork, hsettle]

/-! ### O40 and the first clauses of O41: a front record that halts its axis -/

/-- What the halt of an axis at rest, with nothing but its queue, leaves (R8, R59, R60). -/
structure HaltsAtFront (s t : State) (a : Axis) (r : AxisRecord) (rest : List AxisRecord) (c : FaultCause) : Prop where
  state : (t.axis a).st = .halted
  reason : (t.axis a).cause = some c
  staging : (t.axis a).staging = []
  held : (t.axis a).held = none
  queue : t.fillQueue = s.fillQueue ++ [faultSlot a]
  fault : t.entry (faultSlot a) = .filled {
    seq := 0, source := .axis a, kind := .fault, status := .halted, cause := some c, echo := r.kind
    flushed := rest.length + 1, ringHead := (s.fetcher (axisRing a)).head, tag := r.tag, time := s.time
    cmd := (s.axis a).cmdPos, enc := (s.axis a).encPos, wordA := (((r :: rest).map AxisRecord.tag).getLast?).getD 0, wordB := 0 }
  entries : ∀ e, e ≠ faultSlot a → t.entry e = s.entry e
  axes : ∀ b, b ≠ a → t.axis b = s.axis b
  groups : t.groups = s.groups

theorem haltsAtFront {s : State} {a : Axis} {r : AxisRecord} {rest : List AxisRecord} (hdev : s.dev ≠ .failed)
    (hactive : (s.axis a).active = none) (hheld : (s.axis a).held = none) (hreq : (s.axis a).stopReq = none)
    (hstaging : (s.axis a).staging = r :: rest) (c : FaultCause) :
    HaltsAtFront s (haltAxis a c r.id (s.expired a)) a r rest c := by
  have hexpired := State.expired_axis s a
  rw [haltAxis_of_not_waitSync (.inr (by rw [hexpired]; exact hheld))]
  have hreports := haltCore_reports_bare (s := s.expired a) hdev (a := a) (by rw [hexpired]; exact hactive)
    (by rw [hexpired]; exact hheld) (by rw [hexpired]; exact hreq) c r.id
  have hself := haltCore_axis_same a c r.id (s.expired a)
  obtain ⟨lr, hhalted⟩ := (s.axis a).expire.haltedBy_eq c
  rw [hexpired, hhalted] at hself
  refine ⟨by rw [hself], by rw [hself], by rw [hself], by rw [hself], hreports.queue, ?_, fun e he => ?_, fun b hb => ?_,
    haltCore_groups ..⟩
  · rw [haltCore_faultSlot (s := s.expired a) hdev, faultReport_expired, faultReport, AxisBlock.lastTag_eq, hstaging]
    rfl
  · exact hreports.entry_of_not_mem (by simpa using he.symm)
  · exact (haltCore_axis_ne hb ..).trans (s.expired_axis_ne hb)

/-- Settles O40. -/
theorem invalidFrontRecordHalts : Obligations.InvalidFrontRecordHalts := by
  intro s a r rest x h hnone hst hactive hheld hreq hstaging hbad hin
  have hfront : frontInvalid (s.axis a).cfg r.body = true := by
    obtain ⟨k, hk⟩ | ⟨m, v, hm, hv, hout⟩ := hbad
    · simp only [frontInvalid, hk]
    · simp only [frontInvalid, hm, startRateOk, hv, Bool.not_eq_true', Bool.and_eq_false_imp, decide_eq_true_eq, decide_eq_false_iff_not,
        not_le]
      exact fun hcreep => hout.resolve_left (Nat.not_lt.mpr hcreep)
  have hexec : exec (.updatePeriodExpiry a) s = .next (haltAxis a .recordInvalid r.id (s.expired a)) := by
    rw [exec_expiry_idle_untimed h (fun g hg => absurd hg (hnone g)) hst hin, show (s.axis a).staging = r :: rest from hstaging]
    refine congrArg _ (considerQueue_invalid (s := s.expired a) _ h.1 ?_ (rest := rest) ?_ ?_)
    all_goals rw [State.expired_axis]; assumption
  have hhalts := haltsAtFront (Ready.not_failed h) hactive hheld hreq hstaging .recordInvalid
  refine ⟨_, hexec, hhalts.state, hhalts.reason, hhalts.staging, hhalts.queue, ?_, hhalts.entries, hhalts.axes⟩
  refine hhalts.fault.trans ?_
  obtain ⟨k, hk⟩ | ⟨m, v, hm, -⟩ := hbad
  · simp only [AxisRecord.kind, hk, x]
  · simp only [AxisRecord.kind, hm, x]

/-! ### O41: a tagged front record -/

theorem frontInvalid_of_tagged {c : AxisConfig} {b : AxisBody} {g : GroupIx}
    (h : (∃ n, b = .dwell n (some g)) ∨ (∃ m, b = .move m ∧ m.sync = some g ∧
      ∀ v, m.startRate = some v → c.creepRate ≤ v ∧ v ≤ c.maxRate)) :
    frontInvalid c b = false ∧ b.sync? = some g := by
  obtain ⟨n, rfl⟩ | ⟨m, rfl, hsync, hrange⟩ := h
  · exact ⟨rfl, rfl⟩
  · refine ⟨?_, hsync⟩
    cases hstart : m.startRate with
    | none => simp [frontInvalid, startRateOk, hstart]
    | some v => simpa [frontInvalid, startRateOk, hstart] using hrange v hstart

section
variable {s : State} {a : Axis} {g : GroupIx} {r : AxisRecord}

theorem judgeTagged_refuses (h : (s.group g).st = .free ∨ setHas (s.group g).members a = false) :
    judgeTagged a g r s = haltAxis a .recordInvalid r.id s := if_pos (by simpa using h)

theorem judgeTagged_broken (h : (s.group g).st = .broken) (hmember : setHas (s.group g).members a = true) :
    judgeTagged a g r s = haltAxis a .syncBroken r.id s := by
  rw [judgeTagged, if_neg (by simp [h, hmember]), if_pos h]

variable (h : (s.group g).st = .armed ∨ (s.group g).st = .gathering) (hmember : setHas (s.group g).members a = true)
include h hmember

theorem judgeTagged_waits (hfree : s.freeGeneral = none) : judgeTagged a g r s = s := by
  obtain h | h := h <;>
    rw [judgeTagged, if_neg (by simp [h, hmember]), if_neg (by simp [h]), takeGeneral, hfree, Option.map_none]

theorem judgeTagged_arrives {e : Fin 24} (hfree : s.freeGeneral = some e) :
    judgeTagged a g r s = arrive a g r e (s.setEntry e (.reserved (.heldSync a))) := by
  obtain h | h := h <;>
    rw [judgeTagged, if_neg (by simp [h, hmember]), if_neg (by simp [h]), takeGeneral, hfree, Option.map_some]

end

/-- An arrival, before any release. -/
def State.arrived (s : State) (a : Axis) (g : GroupIx) (r : AxisRecord) (e : Fin 24) : State :=
  (s.modAxis a fun x => { x with
    staging := x.staging.tail, held := some { record := r, group := g, entry := e }, st := .waitSync }).modGroup g (Group.arrive a)

theorem arrive_eq (a : Axis) (g : GroupIx) (r : AxisRecord) (e : Fin 24) (s : State) :
    arrive a g r e s = if setInsert (s.group g).arrived a = (s.group g).members then releaseGroup g (s.arrived a g r e)
      else s.arrived a g r e := by
  have hgroup : (s.arrived a g r e).group g = (s.group g).arrive a := State.modGroup_group_same ..
  change (if ((s.arrived a g r e).group g).arrived = ((s.arrived a g r e).group g).members then _ else _) = _
  rw [hgroup]
  rfl

/-- Settles O41. -/
theorem taggedFrontRecordIsJudged : Obligations.TaggedFrontRecordIsJudged := by
  intro s a g r rest x y halts h hothers htimeout hst hactive hheld hreq hstaging hbody hin
  obtain ⟨hfront, hsync⟩ := frontInvalid_of_tagged hbody
  have htimed : ∀ k, (s.group k).st = .gathering → (s.group k).timeout = none := fun k hk => by
    have heq : k = g := Decidable.by_contra fun hne => hothers k hne hk
    rw [heq] at hk ⊢
    exact htimeout hk
  have hexec : exec (.updatePeriodExpiry a) s = .next (judgeTagged a g r (s.expired a)) := by
    rw [exec_expiry_idle_untimed h htimed hst hin, show (s.axis a).staging = r :: rest from hstaging]
    refine congrArg _ (considerQueue_tagged (s := s.expired a) _ h.1 ?_ (rest := rest) ?_ ?_ hsync)
    all_goals rw [State.expired_axis]; assumption
  have hhalts : ∀ c, judgeTagged a g r (s.expired a) = haltAxis a c r.id (s.expired a) → halts c := fun c hc => by
    have hat := haltsAtFront (Ready.not_failed h) hactive hheld hreq hstaging c
    exact ⟨_, hexec.trans (congrArg _ hc), hat.state, hat.reason, hat.staging, hat.held, hat.queue, hat.fault, hat.entries, hat.axes,
      hat.groups⟩
  refine ⟨fun hno => hhalts _ (judgeTagged_refuses (s := s.expired a) hno),
    fun hbroken hmember => hhalts _ (judgeTagged_broken (s := s.expired a) hbroken hmember),
    fun hopen hmember hnone => ?_, fun hopen hmember hfree hmore => ?_⟩
  · rw [hexec, judgeTagged_waits (s := s.expired a) hopen hmember (freeGeneral_none (s := s.expired a) hnone)]
    exact congrArg _ (State.modAxis_congr _ _ (AxisBlock.expire_eq _))
  · obtain ⟨e, he⟩ := freeGeneral_of hfree
    refine ⟨e, freeGeneral_some he, ?_⟩
    rw [hexec, judgeTagged_arrives (s := s.expired a) hopen hmember he, arrive_eq, if_neg]
    · refine congrArg Host.Outcome.next (congrArg (State.modGroup · g (Group.arrive a)) ?_)
      rw [State.expired, State.setEntry_modAxis, State.setEntry_modAxis, State.modAxis_modAxis]
      refine congrArg (State.setEntry · e _) (State.modAxis_congr _ _ ?_)
      have htail : (s.axis a).expire.staging.tail = rest := by
        change x.staging.tail = rest
        rw [hstaging]
        rfl
      rw [htail, AxisBlock.expire_eq]
    · exact hmore

/-! ### O43: the timeout of a group -/

theorem setLowest_of {m : AxisSet} {a : Axis} (ha : setHas m a = true) (hb : ∀ b, b < a → setHas m b = false) :
    setLowest m = some a := by
  revert m a
  decide

/-- The one gathering group is the one that an expiry of its lowest member counts. -/
theorem timedGroups_one {s : State} {a : Axis} {g : GroupIx} (hothers : ∀ k, k ≠ g → (s.group k).st ≠ .gathering)
    (hst : (s.group g).st = .gathering) (htimeout : (s.group g).timeout.isSome = true)
    (hlowest : setLowest (s.group g).members = some a) : timedGroups a s = [g] := by
  have hone : ∀ k, ((s.group k).st = .gathering && (s.group k).timeout.isSome && setLowest (s.group k).members = some a : Bool)
      = (k == g) := fun k => by
    by_cases hk : k = g
    · subst hk
      simp [hst, htimeout, hlowest]
    · simp [hk, hothers k hk]
  have hfilter : ∀ g : GroupIx, allGroups.filter (fun k => k == g) = [g] := by decide
  rw [timedGroups, List.filter_congr fun k _ => hone k, hfilter]

/-- The group that alone counts an expiry. -/
theorem countTimeouts_one (g : GroupIx) (s : State) : countTimeouts [g] s =
    if ((s.group g).tick).timedOut = true then
      breakTimedOut g { s.modGroup g Group.tick with freeCount := s.freeCount + 1 }
    else s.modGroup g Group.tick := by
  have hgroup : ((s.modGroup g Group.tick).group g) = (s.group g).tick := State.modGroup_group_same ..
  rw [countTimeouts]
  simp only [List.foldl_cons, List.foldl_nil, List.filter_cons, List.filter_nil, hgroup]
  split
  · exact inSomeOrder_one ..
  · exact inSomeOrder_nil ..

/-- Settles O43. -/
theorem groupBreaksAtItsTimeout : Obligations.GroupBreaksAtItsTimeout := by
  intro s a g n x h hothers hgather htimeout hmember hlowest hst hin hheld
  have hne : (s.axis a).st ≠ .off ∧ (s.axis a).st ≠ .halted := by
    obtain hst | ⟨hst, -⟩ := hst <;> rw [show (s.axis a).st = _ from hst] <;> decide
  -- the axis does nothing at its expiry but restart its timer
  have hwork : expiryWork a (s.expired a) = s.expired a := by
    rw [expiryWork_passes (Ready.not_failed (s := s.expired a) h) (by rw [State.expired_axis]; exact hne.2)
      (by rwa [State.expired_axis])]
    obtain hst | ⟨hst, hempty⟩ := hst
    · exact stateWork_waitSync (by rw [State.expired_axis]; exact hst)
    · have hnil : ((s.expired a).axis a).staging = [] := by rw [State.expired_axis]; exact hempty
      rw [stateWork_idle (by rw [State.expired_axis]; exact hst), hnil]
      rfl
  have hexec : exec (.updatePeriodExpiry a) s = .next (settle (countTimeouts [g] (s.expired a))) := by
    change Host.Outcome.next (expiryNow a s) = _
    rw [expiryNow, if_neg hne.1, timedGroups_one hothers hgather (by rw [htimeout]; rfl) (setLowest_of hmember hlowest)]
    exact congrArg (fun t => Host.Outcome.next (settle (countTimeouts [g] t))) hwork
  have hrest := (countTimeouts_seq [g] (s.expired a)).rest
  have htick : ((s.expired a).group g).tick = { s.group g with count := (s.group g).count + 1 } := if_pos hgather
  have htimedOut : ((s.expired a).group g).tick.timedOut = decide (n ≤ (s.group g).count + 1) := by
    rw [htick, Group.timedOut]
    simp only [hgather, htimeout, decide_true, Bool.true_and]
  rw [hexec, settle_of_online (hrest.dev.trans h.1) (hrest.interp.trans h.2), countTimeouts_one, htimedOut]
  refine ⟨fun hlt => ?_, fun heq => ?_⟩
  · rw [if_neg (by simpa using hlt)]
    have hmod : (s.expired a).modGroup g Group.tick = (s.expired a).modGroup g fun y => { y with count := y.count + 1 } := by
      have hget : Group.tick (s.expired a).groups[g] = { (s.expired a).groups[g] with count := (s.expired a).groups[g].count + 1 } := htick
      rw [State.modGroup, State.modGroup, hget]
    rw [hmod]
    refine congrArg (fun t => Host.Outcome.next (State.modGroup t g _)) (State.modAxis_congr _ _ (AxisBlock.expire_eq _))
  · rw [if_pos (by simp [heq])]
    generalize hu : ({ (s.expired a).modGroup g Group.tick with freeCount := (s.expired a).freeCount + 1 } : State) = u
    have hdev : u.dev ≠ .quiescing := by
      rw [← hu]
      change s.dev ≠ .quiescing
      rw [h.1]
      decide
    have hugroup : ∀ k, u.group k = if k = g then { s.group g with count := (s.group g).count + 1 } else s.group k := fun k => by
      rw [← hu, ← htick]
      exact State.modGroup_group ..
    have huaxis : ∀ b, u.axis b = (s.expired a).axis b := fun b => by rw [← hu]; rfl
    have hbgroup := breakGroup_group hdev g (u.group g).arrived
    have hbaxis := breakGroup_axis hdev g (u.group g).arrived
    have harrived : (u.group g).arrived = (s.group g).arrived := by rw [hugroup, if_pos rfl]
    rw [harrived] at hbgroup hbaxis
    refine ⟨_, rfl, ?_, fun k hk => ?_, fun b hb => ?_, fun b hb hba => ?_⟩
    · rw [breakTimedOut, harrived, hbgroup, if_pos rfl, hugroup, if_pos rfl]
      rfl
    · rw [breakTimedOut, harrived, hbgroup, if_neg hk, hugroup, if_neg hk]
    · have hkept : ((s.expired a).axis b).held ≠ none := by
        by_cases hba : b = a
        · rw [hba, State.expired_axis]
          exact hba ▸ hheld b hb
        · rw [s.expired_axis_ne hba]
          exact hheld b hb
      obtain ⟨k, hk⟩ := Option.ne_none_iff_exists'.mp hkept
      obtain ⟨lr, hhalted⟩ := ((s.expired a).axis b).haltedBy_eq .syncBroken
      rw [breakTimedOut, harrived, hbaxis, if_pos hb, huaxis, AxisBlock.memberHalted_of_held hk, hhalted]
      exact ⟨rfl, rfl, rfl, rfl⟩
    · rw [breakTimedOut, harrived, hbaxis, if_neg (by rw [hb]; decide), huaxis, s.expired_axis_ne hba]

end Sys2Proof.Machine
end

section
/-! PROOFS. O38 and O39: activation from rest. -/

namespace Sys2Proof.Machine
open Sys2Proof

/-! ### The activation of the front record -/

/-- The state in which a front record has become the active segment with entry `e`, at an expiry. -/
def State.activated (s : State) (a : Axis) (r : AxisRecord) (e : Fin 24) : State :=
  activate a r e ((s.expired a).setEntry e (.reserved (.axisRecord a)))

/-- An axis block in which a front record has become the active segment, at an expiry. -/
def AxisBlock.activates (r : AxisRecord) (e : Fin 24) (x : AxisBlock) : AxisBlock :=
  { x.expire with staging := x.staging.tail, active := some (newSegment r e) }

section
variable (s : State) (a : Axis) (r : AxisRecord) (e : Fin 24)

theorem State.activated_eq :
    s.activated a r e = (s.setEntry e (.reserved (.axisRecord a))).modAxis a (AxisBlock.activates r e) := by
  rw [State.activated, activate, State.expired, State.setEntry_modAxis, State.setEntry_modAxis, State.modAxis_modAxis]
  rfl

theorem State.activated_axis : (s.activated a r e).axis a = (s.axis a).activates r e := by
  rw [State.activated_eq, State.modAxis_axis_same]
  rfl

theorem State.activated_axis_ne {b : Axis} (h : b ≠ a) : (s.activated a r e).axis b = s.axis b := by
  rw [State.activated_eq, State.modAxis_axis_ne _ _ h]
  rfl

theorem State.activated_dev : (s.activated a r e).dev = s.dev := rfl

theorem State.activated_interp : (s.activated a r e).interp = s.interp := rfl

end

section
variable {s : State} {a : Axis} {r : AxisRecord} {rest : List AxisRecord} (h : s.Ready)
  (htimed : ∀ g, (s.group g).st = .gathering → (s.group g).timeout = none) (hst : (s.axis a).st = .idle)
  (hin : (s.axis a).cfg.countsPerStep = 0 ∨ (s.axis a).acc.natAbs ≤ (s.axis a).cfg.followWindow)
  (hstaging : (s.axis a).staging = r :: rest) (hok : frontInvalid (s.axis a).cfg r.body = false) (hsync : r.body.sync? = none)
include h htimed hst hin hstaging hok hsync

/-- An expiry at which an untagged front record is activated. -/
theorem exec_expiry_activates {e : Fin 24} (hfree : s.freeGeneral = some e) : exec (.updatePeriodExpiry a) s = .next (
    if (runActivated a r (s.activated a r e)).2 = true then
      considerQueue a rest.length (acceptAtRelease (some a) (runActivated a r (s.activated a r e)).1)
    else (runActivated a r (s.activated a r e)).1) := by
  rw [exec_expiry_idle_untimed h htimed hst hin, hstaging]
  refine congrArg _ (considerQueue_activates (s := s.expired a) _ h.1 ?_ (rest := rest) ?_ ?_ hsync hfree)
  all_goals rw [State.expired_axis]; assumption

/-- One at which it waits for an entry. -/
theorem exec_expiry_waits (hfree : s.freeGeneral = none) : exec (.updatePeriodExpiry a) s = .next (s.expired a) := by
  rw [exec_expiry_idle_untimed h htimed hst hin, hstaging]
  refine congrArg _ (considerQueue_waits (s := s.expired a) _ h.1 ?_ (rest := rest) ?_ ?_ hsync hfree)
  all_goals rw [State.expired_axis]; assumption

end

/-! ### O38: a MOVE -/

theorem firstRate_of_some {c : AxisConfig} {m : Move} {v : Nat} (h : m.startRate = some v) (n : Nat) : firstRate c n m = v := by
  rw [firstRate, h, Option.getD_some]

theorem firstRate_of_none {c : AxisConfig} {m : Move} (h : m.startRate = none) : firstRate c 0 m =
    if m.delta < c.creepRate then c.creepRate else if c.maxRate < m.delta then c.maxRate else m.delta.toNat := by
  rw [firstRate, h, Option.getD_none, clampRate, Int.natCast_zero, zero_add]

theorem dirLevel_eq (d : Dir) : dirLevel d = (d == .reverse) := by cases d <;> rfl

/-- A MOVE that starts from rest (R9, R30, R108). -/
theorem AxisBlock.enterRun_eq (m : Move) (x : AxisBlock) : x.enterRun m =
    let first := firstRate x.cfg 0 m
    let steps := min (first / 65536) m.steps
    { x with
      st := .run, rate := first, frac := first % 65536, remaining := m.steps - steps, firstMark := false, periodSteps := steps
      dir := m.dir, dirPin := dirLevel m.dir, setupMark := (x.dirPin != dirLevel m.dir)
      schedule := x.schedule ++ (List.range steps).map fun k =>
        k * (50 * x.cfg.updatePeriod) / steps + if (x.dirPin != dirLevel m.dir) = true then 50 * x.cfg.dirSetup else 0 } := by
  simp only [AxisBlock.enterRun, AxisBlock.openPeriod, AxisBlock.nextRate, AxisBlock.handOver, AxisBlock.pulseTimes, if_true, zero_add,
    ticksOf_eq]

/-- An active limit lies in the direction of a MOVE (R88). -/
theorem limitActive_iff (s : State) (a : Axis) (d : Dir) : limitActive s a d = true ↔ (s.axis a).cfg.limitsOn = true ∧
    (d = .forward ∧ (s.line (.limP a)).level = (s.axis a).cfg.limitHigh ∨
      d = .reverse ∧ (s.line (.limN a)).level = (s.axis a).cfg.limitHigh) := by
  cases d <;> simp [limitActive]

theorem limitActive_congr {s t : State} {a : Axis} (hcfg : (t.axis a).cfg = (s.axis a).cfg) (hlines : t.lines = s.lines) (d : Dir) :
    limitActive t a d = limitActive s a d := by
  have hline : ∀ l, t.line l = s.line l := fun l => by rw [State.line, hlines]; rfl
  cases d <;> simp only [limitActive, hcfg, hline]

section
variable {s : State} {a : Axis} {m : Move}

theorem startFault_limited (h : limitActive s a m.dir = true) : startFault s a m = some (limitCause m.dir) := if_pos h

theorem startFault_jump (h : ¬ limitActive s a m.dir = true) (hjump : (s.axis a).cfg.jumpLimit < firstRate (s.axis a).cfg 0 m) :
    startFault s a m = some .rateJump := by
  rw [startFault, if_neg h, if_pos hjump]

theorem startFault_none (h : ¬ limitActive s a m.dir = true) (hjump : firstRate (s.axis a).cfg 0 m ≤ (s.axis a).cfg.jumpLimit) :
    startFault s a m = none := by
  rw [startFault, if_neg h, if_neg (Nat.not_lt.mpr hjump)]

/-- The checks of a MOVE look at the configuration of its axis and its limit lines. -/
theorem startFault_congr {t : State} (hcfg : (t.axis a).cfg = (s.axis a).cfg) (hlines : t.lines = s.lines) :
    startFault t a m = startFault s a m := by
  rw [startFault, startFault, limitActive_congr hcfg hlines, hcfg]

theorem startMove_halts {c : FaultCause} (h : startFault s a m = some c) : startMove a m s = haltCore a c (s.axis a).faultId s := by
  simp only [startMove, h]

theorem startMove_runs (h : startFault s a m = none) : startMove a m s = s.modAxis a (AxisBlock.enterRun m) := by
  simp only [startMove, h]

end

theorem runActivated_move {r : AxisRecord} {m : Move} (h : r.body = .move m) (a : Axis) (s : State) :
    runActivated a r s = (startMove a m s, false) := by
  simp only [runActivated, h]

theorem frontInvalid_of_range {c : AxisConfig} {b : AxisBody} (hvalid : ∀ k, b ≠ .invalid k)
    (hrange : ∀ m v, b = .move m → m.startRate = some v → c.creepRate ≤ v ∧ v ≤ c.maxRate) : frontInvalid c b = false := by
  cases b with
  | move m =>
    cases hstart : m.startRate with
    | none => simp [frontInvalid, startRateOk, hstart]
    | some v => simpa [frontInvalid, startRateOk, hstart] using hrange m v rfl hstart
  | invalid k => exact absurd rfl (hvalid k)
  | _ => rfl

/-- Settles O38. -/
theorem moveIsActivatedFromRest : Obligations.MoveIsActivatedFromRest := by
  intro s a r rest m x c first limited steps delay h hnone hst hheld hreq hstaging hbody hsync hrange hin hfree
  obtain ⟨e, he⟩ := freeGeneral_of hfree
  have hgeneral := freeGeneral_some he
  have hfirst : firstRate (s.axis a).cfg 0 m = first := by
    cases hstart : m.startRate with
    | none => simp only [firstRate_of_none hstart, first, hstart, c, x]
    | some v => simp only [firstRate_of_some hstart, first, hstart]
  have hlimited : limitActive s a m.dir = true ↔ limited := limitActive_iff s a m.dir
  have hok : frontInvalid (s.axis a).cfg r.body = false :=
    frontInvalid_of_range (by simp [hbody]) fun m' v hm hv => by
      obtain rfl : m = m' := AxisBody.move.inj (hbody.symm.trans hm)
      exact hrange v hv
  have hsync' : r.body.sync? = none := by simp only [AxisBody.sync?, hbody, hsync]
  have hexec := exec_expiry_activates h (fun g hg => absurd hg (hnone g)) hst hin hstaging hok hsync' he
  rw [runActivated_move hbody, if_neg Bool.false_ne_true] at hexec
  change _ = Host.Outcome.next (startMove a m (s.activated a r e)) at hexec
  have haxis := s.activated_axis a r e
  have hfault : startFault (s.activated a r e) a m = startFault s a m := startFault_congr (by rw [haxis]; rfl) rfl
  have htail : (s.axis a).staging.tail = rest := by
    rw [show (s.axis a).staging = r :: rest from hstaging]
    rfl
  refine ⟨fun hno hle => ⟨e, hgeneral, ?_⟩, fun hfails => ?_⟩
  · have hstarts : startFault s a m = none := startFault_none (mt hlimited.mp hno) (by rw [hfirst]; exact hle)
    rw [hexec, startMove_runs (hfault.trans hstarts), State.activated_eq, State.modAxis_modAxis]
    refine congrArg _ (State.modAxis_congr _ _ ?_)
    rw [State.setEntry_axis, AxisBlock.enterRun_eq, AxisBlock.activates, htail, AxisBlock.expire_eq]
    simp only [hfirst, dirLevel_eq, newSegment]
    have hdelay : (if (x.dirPin != (m.dir == .reverse)) = true then 50 * c.dirSetup else 0) = delay := by
      simp only [delay, bne_iff_ne, ite_not]
    simp only [← hdelay]
    rfl
  · obtain ⟨cause, hcause⟩ : ∃ cause, startFault s a m = some cause ∧ (limited → cause = limitCause m.dir) ∧
        (¬ limited → cause = .rateJump) := by
      by_cases hlim : limited
      · exact ⟨_, startFault_limited (hlimited.mpr hlim), fun _ => rfl, fun hno => absurd hlim hno⟩
      · refine ⟨_, startFault_jump (mt hlimited.mp hlim) ?_, fun hyes => absurd hyes hlim, fun _ => rfl⟩
        rw [hfirst]
        exact hfails.resolve_left hlim
    obtain ⟨hcause, hlim, hjump⟩ := hcause
    have hid : ((s.activated a r e).axis a).faultId = r.id := by
      rw [haxis]
      rfl
    rw [startMove_halts (hfault.trans hcause), hid] at hexec
    have hreports := haltCore_reports (s := s.activated a r e) (Ready.not_failed (s := s.activated a r e) h) a cause r.id
    have hheld' : ((s.axis a).activates r e).held = none := hheld
    have hreq' : ((s.axis a).activates r e).stopReq = none := hreq
    have hactive' : ((s.axis a).activates r e).active = some (newSegment r e) := rfl
    simp only [haltReports, activeReport, heldReport, requestReport, haxis, hheld', hreq', hactive', List.append_nil] at hreports
    have hself := haltCore_axis_same a cause r.id (s.activated a r e)
    obtain ⟨lr, hhalted⟩ := ((s.axis a).activates r e).haltedBy_eq cause
    rw [haxis, hhalted] at hself
    have hne : faultSlot a ≠ e := faultSlot_ne_general hgeneral.1
    refine ⟨_, hexec, by rw [hself], fun hyes => ?_, fun hno => by rw [hself, hjump hno], by rw [hself], by rw [hself], by rw [hself],
      by rw [hself]; rfl, ⟨e, _, hgeneral, hreports.entry_of_split (l := []) (k := [_]) (by simpa [newSegment] using hne), rfl, rfl, ?_, hreports.queue⟩,
      ⟨_, hreports.entry_last, rfl, ?_⟩⟩
    · rw [hself, hlim hyes]
      cases m.dir <;> rfl
    · simp only [Segment.words, newSegment, hbody]
      rfl
    · change ((s.activated a r e).axis a).staging.length = _
      rw [haxis, ← htail]
      rfl

/-! ### O39: the other kinds -/

theorem State.setEntry_self {s : State} {e : Fin 24} {v : Entry} (h : s.entry e = v) : s.setEntry e v = s := by
  subst h
  simp [State.setEntry, State.entry]

/-- A front record that has completed: `f` is what its kind does to the axis. -/
def AxisBlock.completed (f : AxisBlock → AxisBlock) (r : AxisRecord) (rest : List AxisRecord) (x : AxisBlock) : AxisBlock :=
  { f x with staging := rest, active := none, lastRetired := some r.id }

/-- The state a completed front record leaves, with its report where its flag is set. -/
def State.completedFront (s : State) (a : Axis) (f : AxisBlock → AxisBlock) (r : AxisRecord) (rest : List AxisRecord) (e : Fin 24)
    (w : Word × Word) : State :=
  let u := s.modAxis a (AxisBlock.completed f r rest)
  if r.report = true then u.withReport e (axisReport u a .segment .ok none r.id 0 0 w.1 w.2) else u

theorem State.completedFront_axis (s : State) (a : Axis) (f : AxisBlock → AxisBlock) (r : AxisRecord) (rest : List AxisRecord)
    (e : Fin 24) (w : Word × Word) : (s.completedFront a f r rest e w).axis a = (s.axis a).completed f r rest := by
  unfold State.completedFront
  split
  · exact (State.withReport_axis ..).trans (State.modAxis_axis_same ..)
  · exact State.modAxis_axis_same ..

theorem State.completedFront_keeps (s : State) (a : Axis) (f : AxisBlock → AxisBlock) (r : AxisRecord) (rest : List AxisRecord)
    (e : Fin 24) (w : Word × Word) : (s.completedFront a f r rest e w).dev = s.dev ∧
      (s.completedFront a f r rest e w).interp = s.interp ∧ ∀ g, (s.completedFront a f r rest e w).group g = s.group g := by
  unfold State.completedFront
  split <;> exact ⟨rfl, rfl, fun _ => rfl⟩

section
variable {s : State} {a : Axis} {r : AxisRecord} {rest : List AxisRecord} {e : Fin 24} {f k : AxisBlock → AxisBlock}

/-- The retirement of a record activated with a FREE entry leaves the state of its completion, its timer restarted. -/
theorem retireActive_activated (h : s.Ready) (hfree : s.entry e = .free)
    (hk : k ((s.axis a).activates r e) = { (f (s.axis a)).expire with staging := rest, active := some (newSegment r e) })
    (w : Segment → Word × Word) :
    retireActive a .ok none w ((s.activated a r e).modAxis a k) =
      (s.completedFront a f r rest e (w (newSegment r e))).expired a := by
  have haxis : ((s.activated a r e).modAxis a k).axis a =
      { (f (s.axis a)).expire with staging := rest, active := some (newSegment r e) } := by
    rw [State.modAxis_axis_same, State.activated_axis, hk]
  have hactive : (((s.activated a r e).modAxis a k).axis a).active = some (newSegment r e) := by rw [haxis]
  have hdev : ((s.activated a r e).modAxis a k).dev ≠ .failed := by
    rw [State.modAxis_dev, State.activated_dev]
    exact Ready.not_failed h
  have hinterp : ((s.activated a r e).modAxis a k).interp = .waiting := by
    rw [State.modAxis_interp, State.activated_interp]
    exact h.2
  have hretired : ((s.activated a r e).modAxis a k).modAxis a (AxisBlock.retires (newSegment r e)) =
      ((s.modAxis a (AxisBlock.completed f r rest)).expired a).setEntry e (.reserved (.axisRecord a)) := by
    rw [State.activated_eq, State.setEntry_modAxis, State.setEntry_modAxis, State.setEntry_modAxis, State.expired,
      State.modAxis_modAxis, State.modAxis_modAxis, State.modAxis_modAxis]
    refine congrArg (State.setEntry · e _) (State.modAxis_congr _ _ ?_)
    rw [hk]
    rfl
  by_cases hreport : r.report = true
  · rw [State.completedFront, if_pos hreport, State.expired, State.withReport_modAxis,
      retireActive_fills hactive hdev (by simp [newSegment, hreport]), hretired]
    refine (State.setEntry_withReport ..).trans (congrArg (State.withReport _ e) ?_)
    refine axisReport_congr (s := s.modAxis a (AxisBlock.completed f r rest)) (t := (s.activated a r e).modAxis a k) rfl ?_ ?_ ..
    all_goals rw [haxis, State.modAxis_axis_same]
    all_goals rfl
  · rw [State.completedFront, if_neg hreport, retireActive_releases hactive hinterp (Bool.not_eq_true _ ▸ hreport), hretired]
    exact (State.setEntry_setEntry ..).trans (State.setEntry_self hfree)

/-- At an expiry that activates a record which completes at once, the queue behind it is considered (R7). -/
theorem exec_expiry_completes (h : s.Ready) (hnone : ∀ g, (s.group g).st ≠ .gathering) (hst : (s.axis a).st = .idle)
    (hin : (s.axis a).cfg.countsPerStep = 0 ∨ (s.axis a).acc.natAbs ≤ (s.axis a).cfg.followWindow)
    (hstaging : (s.axis a).staging = r :: rest) (hok : frontInvalid (s.axis a).cfg r.body = false) (hsync : r.body.sync? = none)
    (hfree : s.freeGeneral = some e) {w : Word × Word}
    (hrun : runActivated a r (s.activated a r e) = ((s.completedFront a f r rest e w).expired a, true))
    (hfst : (f (s.axis a)).st = .idle) (hfcfg : (f (s.axis a)).cfg = (s.axis a).cfg)
    (hfacc : (f (s.axis a)).acc = (s.axis a).acc ∨ (f (s.axis a)).acc = 0) :
    exec (.updatePeriodExpiry a) s = exec (.updatePeriodExpiry a) (s.completedFront a f r rest e w) := by
  obtain ⟨hdev, hinterp, hgroup⟩ := s.completedFront_keeps a f r rest e w
  have haxis := s.completedFront_axis a f r rest e w
  have htarget := exec_expiry_idle_untimed (s := s.completedFront a f r rest e w) (a := a) ⟨hdev.trans h.1, hinterp.trans h.2⟩
    (fun g hg => absurd (hgroup g ▸ hg) (hnone g)) (by rw [haxis]; exact hfst) (by
      rw [haxis]
      change (f (s.axis a)).cfg.countsPerStep = 0 ∨ (f (s.axis a)).acc.natAbs ≤ (f (s.axis a)).cfg.followWindow
      rw [hfcfg]
      obtain hfacc | hfacc := hfacc
      · rwa [hfacc]
      · exact .inr (by rw [hfacc]; exact Nat.zero_le _))
  have hlength : ((s.completedFront a f r rest e w).axis a).staging.length = rest.length := by rw [haxis]; rfl
  have hexec := exec_expiry_activates h (fun g hg => absurd hg (hnone g)) hst hin hstaging hok hsync hfree
  rw [htarget, hlength, hexec, hrun]
  generalize s.completedFront a f r rest e w = t at hinterp
  have hwaiting : (t.expired a).interp = .waiting := hinterp.trans h.2
  exact congrArg (fun u => Host.Outcome.next (considerQueue a rest.length u)) (acceptAtRelease_of_waiting (some a) hwaiting)

end

/-- What an activated record that does not complete does. -/
theorem runActivated_dwell {r : AxisRecord} {n : Nat} {g : Option GroupIx} (h : r.body = .dwell n g) (a : Axis) (s : State) :
    runActivated a r s = (s.modAxis a fun x => { x with st := .dwell }, false) := by
  simp only [runActivated, h]

theorem runActivated_wait {r : AxisRecord} {w : Wait} (h : r.body = .wait w) {a : Axis} {s : State}
    (hno : ¬ (w.policy = .latched ∧ ((s.axis a).latch w.src).flag = true)) : runActivated a r s = (s.modAxis a fun x =>
      { (if w.policy = .fresh then x.setLatch w.src Latch.clear else x) with st := .waitEvent }, false) := by
  simp only [runActivated, h]
  exact if_neg (by simpa using hno)

theorem runActivated_latched {r : AxisRecord} {w : Wait} (h : r.body = .wait w) {a : Axis} {s : State} (hp : w.policy = .latched)
    (hflag : ((s.axis a).latch w.src).flag = true) : runActivated a r s = (completeWait a w s, true) := by
  simp only [runActivated, h]
  exact if_pos (by simp [hp, hflag])

theorem runActivated_setpos {r : AxisRecord} {c e : Option Word} (h : r.body = .setpos c e) (a : Axis) (s : State) :
    runActivated a r s = (retireActive a .ok none Segment.words (s.modAxis a (AxisBlock.applySetpos c e)), true) := by
  simp only [runActivated, h]

theorem runActivated_mark {r : AxisRecord} (h : r.body = .mark) (a : Axis) (s : State) :
    runActivated a r s = (retireActive a .ok none Segment.words s, true) := by
  simp only [runActivated, h]

/-- The change of an axis by a WAIT that consumes its latch. -/
def AxisBlock.waited (w : Wait) (x : AxisBlock) : AxisBlock := { x with
  latches := x.latches.set (sourceIx w.src) Latch.clear
  cmdPos := w.ref.getD x.cmdPos
  encPos := match w.ref with
    | none => x.encPos
    | some v => v * BitVec.ofNat 32 x.cfg.countsPerStep
  acc := match w.ref with
    | none => x.acc
    | some _ => 0 }

theorem AxisBlock.setLatch_applyRef (w : Wait) (x : AxisBlock) : (x.setLatch w.src Latch.clear).applyRef w = x.waited w := by
  cases href : w.ref <;> simp only [AxisBlock.applyRef, AxisBlock.setLatch, AxisBlock.waited, href, Option.getD_none, Option.getD_some]

/-- The change of an axis by a SETPOS. -/
def AxisBlock.positioned (c e : Option Word) (x : AxisBlock) : AxisBlock :=
  { x with cmdPos := c.getD x.cmdPos, encPos := e.getD x.encPos, acc := if e.isSome then 0 else x.acc }

theorem AxisBlock.applySetpos_positioned (c e : Option Word) (x : AxisBlock) : x.applySetpos c e = x.positioned c e := by
  cases c <;> cases e <;> rfl

/-- Settles O39. -/
theorem recordsAreActivatedFromRest : Obligations.RecordsAreActivatedFromRest := by
  intro s a x passed h hnone hst hin
  have hpassed : s.expired a = s.modAxis a passed := State.modAxis_congr _ _ (AxisBlock.expire_eq _)
  have htimed : ∀ g, (s.group g).st = .gathering → (s.group g).timeout = none := fun g hg => absurd hg (hnone g)
  refine ⟨fun hempty => ?_, ?_⟩
  · rw [exec_expiry_idle_untimed h htimed hst hin, show (s.axis a).staging = [] from hempty, ← hpassed]
    rfl
  intro r rest hstaging starts completes
  refine ⟨fun hvalid hrange hsync hfull => ?_, fun hfree => ?_⟩
  · rw [exec_expiry_waits h htimed hst hin hstaging (frontInvalid_of_range hvalid hrange) hsync (freeGeneral_none hfull), hpassed]
  obtain ⟨e, he⟩ := freeGeneral_of hfree
  have hgeneral := freeGeneral_some he
  have hexec := fun hok hsync => exec_expiry_activates h htimed hst hin hstaging hok hsync he
  have htail : (s.axis a).staging.tail = rest := by
    rw [show (s.axis a).staging = r :: rest from hstaging]
    rfl
  -- a record that stays active
  have hstarts : ∀ (f k : AxisBlock → AxisBlock), frontInvalid (s.axis a).cfg r.body = false → r.body.sync? = none →
      runActivated a r (s.activated a r e) = ((s.activated a r e).modAxis a k, false) →
      k ((s.axis a).activates r e) = { f (passed (s.axis a)) with
        staging := rest, active := some { record := r, entry := e, issued := 0, overrun := 0, expiries := 0 } } →
      starts f := by
    intro f k hok hsync hrun hk
    refine ⟨e, hgeneral, ?_⟩
    rw [hexec hok hsync, hrun, if_neg Bool.false_ne_true]
    dsimp only
    rw [State.activated_eq, State.modAxis_modAxis]
    exact congrArg _ (State.modAxis_congr _ _ hk)
  -- one that completes
  have hcompletes : ∀ (f k : AxisBlock → AxisBlock) (w : Segment → Word × Word) (wa wb : Word),
      frontInvalid (s.axis a).cfg r.body = false → r.body.sync? = none →
      runActivated a r (s.activated a r e) = (retireActive a .ok none w ((s.activated a r e).modAxis a k), true) →
      k ((s.axis a).activates r e) = { (f (s.axis a)).expire with staging := rest, active := some (newSegment r e) } →
      w (newSegment r e) = (wa, wb) → (f (s.axis a)).st = .idle → (f (s.axis a)).cfg = (s.axis a).cfg →
      ((f (s.axis a)).acc = (s.axis a).acc ∨ (f (s.axis a)).acc = 0) → completes f wa wb := by
    intro f k w wa wb hok hsync hrun hk hw hfst hfcfg hfacc
    rw [retireActive_activated h hgeneral.2 hk, hw] at hrun
    refine ⟨e, hgeneral, (exec_expiry_completes h hnone hst hin hstaging hok hsync he hrun hfst hfcfg hfacc).trans ?_⟩
    have hreport : axisReport (s.modAxis a (AxisBlock.completed f r rest)) a .segment .ok none r.id 0 0 wa wb = {
        seq := 0, source := .axis a, kind := .segment, status := .ok, cause := none, echo := r.kind, flushed := 0
        ringHead := 0, tag := r.tag, time := s.time, cmd := (f x).cmdPos, enc := (f x).encPos, wordA := wa, wordB := wb } := by
      rw [axisReport, State.modAxis_axis_same]
      rfl
    rw [State.completedFront]
    simp only [hreport]
    rfl
  have hwords : (r.body = .mark ∨ ∃ c p, r.body = .setpos c p) → Segment.words (newSegment r e) = (0, 0) := by
    rintro (hbody | ⟨c, p, hbody⟩) <;> simp only [Segment.words, newSegment, hbody]
  refine ⟨fun n hbody => ?_, fun w hbody hp => ?_, fun w hbody hp hflag => ?_, fun w hbody hp hflag => ?_,
    fun c p hbody => ?_, fun hbody => ?_⟩
  · refine hstarts (fun x => { x with st := .dwell }) _ (by rw [hbody]; rfl) (by rw [hbody]; rfl) (runActivated_dwell hbody ..) ?_
    rw [AxisBlock.activates, htail, AxisBlock.expire_eq]
    rfl
  · refine hstarts (fun x => { x with st := .waitEvent, latches := x.latches.set (sourceIx w.src) Latch.clear }) _ (by rw [hbody]; rfl)
      (by rw [hbody]; rfl) (runActivated_wait hbody (by rw [hp]; simp)) ?_
    rw [AxisBlock.activates, htail, AxisBlock.expire_eq, hp]
    rfl
  · refine hstarts (fun x => { x with st := .waitEvent }) _ (by rw [hbody]; rfl) (by rw [hbody]; rfl) (runActivated_wait hbody ?_) ?_
    · rw [State.activated_axis]
      exact fun hyes => Bool.false_ne_true (hflag.symm.trans hyes.2)
    · rw [AxisBlock.activates, htail, AxisBlock.expire_eq, hp]
      rfl
  · have hlatch : (((s.activated a r e).axis a).latch w.src) = x.latch w.src := by
      rw [State.activated_axis]
      rfl
    have hrun := runActivated_latched hbody (s := s.activated a r e) hp (by rw [hlatch]; exact hflag)
    have hk : (AxisBlock.waited w) ((s.axis a).activates r e)
        = { ((s.axis a).waited w).expire with staging := rest, active := some (newSegment r e) } := by
      rw [AxisBlock.activates, htail]
      rfl
    have hidle : completeWait a w (s.activated a r e) = retireActive a .ok none
        (fun _ => ((x.latch w.src).time, BitVec.ofNat 32 (bnat (x.latch w.src).overrun)))
        ((s.activated a r e).modAxis a (AxisBlock.waited w)) := by
      have hmod : ((s.activated a r e).modAxis a fun x => (x.setLatch w.src Latch.clear).applyRef w)
          = (s.activated a r e).modAxis a (AxisBlock.waited w) := State.modAxis_congr _ _ (AxisBlock.setLatch_applyRef ..)
      rw [completeWait, hlatch, hmod, State.modAxis_self]
      rw [retireActive_activated h hgeneral.2 hk, State.expired_axis, State.completedFront_axis]
      have hstays : ((s.axis a).completed (AxisBlock.waited w) r rest).expire.st = .idle := hst
      rw [← hstays]
    rw [hidle] at hrun
    refine hcompletes (AxisBlock.waited w) _ _ _ _ (by rw [hbody]; rfl) (by rw [hbody]; rfl) hrun hk ?_ hst rfl ?_
    · cases (x.latch w.src).overrun <;> rfl
    · rw [AxisBlock.waited]
      cases w.ref
      · exact .inl rfl
      · exact .inr rfl
  · refine hcompletes (AxisBlock.positioned c p) _ _ _ _ (by rw [hbody]; rfl) (by rw [hbody]; rfl) (runActivated_setpos hbody ..) ?_
      (hwords (.inr ⟨c, p, hbody⟩)) hst rfl ?_
    · rw [AxisBlock.applySetpos_positioned, AxisBlock.activates, htail]
      rfl
    · rw [AxisBlock.positioned]
      cases p
      · exact .inl rfl
      · exact .inr rfl
  · refine hcompletes (fun x => x) (fun x => x) _ _ _ (by rw [hbody]; rfl) (by rw [hbody]; rfl) ?_ ?_ (hwords (.inl hbody)) hst rfl (.inl rfl)
    · rw [State.modAxis_id]
      exact runActivated_mark hbody ..
    · rw [AxisBlock.activates, htail]

end Sys2Proof.Machine
end

section
/-! PROOFS. O53, O57 and O59: stop requests of a moving axis, groups, and what the interpreter does itself. -/

namespace Sys2Proof.Machine
open Sys2Proof

/-! ### O57: DEFINE_GROUP and CLEAR_GROUP -/

theorem two_le_setSize {m : AxisSet} {a b : Axis} (hne : a ≠ b) (ha : setHas m a = true) (hb : setHas m b = true) : 2 ≤ setSize m := by
  revert m a b
  decide

theorem optIn_iff (v : Option Nat) (lo hi : Nat) : optIn v lo hi = true ↔ ∀ n, v = some n → lo ≤ n ∧ n ≤ hi := by
  cases v <;> simp [optIn]

/-- A completion after an update of a group. -/
theorem complete_modGroup_taken {s : State} (h : s.Ready) (e : Fin 24) (c : CtlRecord) (st : Status) (x y : Word) (g : GroupIx)
    (f : Group → Group) :
    complete c e st 0 0 x y ((s.setEntry e (.reserved .control)).modGroup g f) =
      (s.modGroup g f).withReport e (ctlReport s c.body.axis? c.tag c.body.kind st 0 0 x y) := by
  rw [State.setEntry_modGroup, complete_eq c e st 0 0 x y (s := (s.modGroup g f).setEntry e _) (Ready.not_failed h),
    State.setEntry_withReport, ctlReport_setEntry, ctlReport_modGroup]

section
variable {s : State} {g : GroupIx} {tag : Word} (h : s.Ready)
include h

theorem defineGroup_completes {m : AxisSet} {reusable : Bool} {timeout : Option Nat} (hfree : ∃ e, s.FreeGeneral e)
    (hrange : (CtlBody.defineGroup g m reusable timeout).inRange = true) :
    ((s.group g).st = .gathering → ∃ e, s.FreeGeneral e ∧ exec (.defineGroup g tag m reusable timeout) s = .next
      (s.withReport e (ctlReport s none tag 0x17 .busy 0 0 2 ((s.group g).gen.setWidth 32)))) ∧
    ((s.group g).st ≠ .gathering → ∃ e, s.FreeGeneral e ∧ exec (.defineGroup g tag m reusable timeout) s = .next
      ((s.modGroup g fun _ => definedGroup m reusable timeout).withReport e
        (ctlReport s none tag 0x17 .ok 0 0 (groupWordA (s.group g).st 0) ((s.group g).gen.setWidth 32)))) := by
  refine ⟨fun hst => ?_, fun hst => ?_⟩
  · refine completes_general (b := .defineGroup g m reusable timeout) h hfree hrange rfl (fun e => ?_) h.1 h.2
    refine (if_pos hst).trans ((complete_taken h e _ .busy 0 0 _ _).trans ?_)
    rw [State.setEntry_group, hst]
    rfl
  · refine completes_general (b := .defineGroup g m reusable timeout) h hfree hrange rfl (fun e => ?_) h.1 h.2
    exact (if_neg hst).trans (complete_modGroup_taken h e _ .ok _ _ g _)

/-- A clear of a group that gathers: it breaks, and the completion follows the reports of its members. -/
theorem clearGroup_gathering {e : Fin 24} (he : s.freeGeneral = some e) (hst : (s.group g).st = .gathering) :
    exec (.clearGroup g tag) s = .next
      (((breakGroup g (s.group g).arrived (s.setEntry e (.reserved .control))).modGroup g fun _ => Group.reset).withReport e
        (ctlReport s none tag 0x18 .ok 0 0 (groupWordA .gathering (setSize (s.group g).arrived)) ((s.group g).gen.setWidth 32))) := by
  have hrest := (breakGroup_seq g (s.group g).arrived (s.setEntry e (.reserved .control))).rest
  have haccept : accept { tag := tag, body := .clearGroup g } e (s.setEntry e (.reserved .control)) =
      complete { tag := tag, body := .clearGroup g } e .ok 0 0 (groupWordA .gathering (setSize (s.group g).arrived))
        ((s.group g).gen.setWidth 32)
        ((breakGroup g (s.group g).arrived (s.setEntry e (.reserved .control))).modGroup g fun _ => Group.reset) := by
    change acceptClearGroup _ e g _ = _
    simp only [acceptClearGroup, State.setEntry_group, hst, if_true]
  generalize breakGroup g (s.group g).arrived (s.setEntry e (.reserved .control)) = u at haccept hrest
  have hdev : (u.modGroup g fun _ => Group.reset).dev = .online := hrest.dev.trans h.1
  have hreport : ctlReport (u.modGroup g fun _ => Group.reset) none tag 0x18 .ok 0 0
      (groupWordA .gathering (setSize (s.group g).arrived)) ((s.group g).gen.setWidth 32) =
      ctlReport s none tag 0x18 .ok 0 0 (groupWordA .gathering (setSize (s.group g).arrived)) ((s.group g).gen.setWidth 32) :=
    ctlReport_congr (s := s) (t := u.modGroup g fun _ => Group.reset) (a? := none) hrest.time (fun _ hb => nomatch hb) ..
  refine (exec_instr tag (.clearGroup g) s).trans (congrArg _ ?_)
  refine deliverCommand_takes_general h he rfl rfl (haccept.trans ?_) hdev (hrest.interp.trans h.2)
  rw [complete_eq _ e .ok 0 0 _ _ (by rw [hdev]; decide)]
  exact congrArg _ hreport

end

/-- Settles O57. -/
theorem defineAndClearGroup : Obligations.DefineAndClearGroup := by
  constructor
  · intro s g tag m reusable timeout y h hfree hmembers htimeout
    obtain ⟨a, b, hne, ha, hb⟩ := hmembers
    have hrange : (CtlBody.defineGroup g m reusable timeout).inRange = true := by
      simp only [CtlBody.inRange, two_le_setSize hne ha hb, (optIn_iff timeout 1 65535).mpr htimeout, decide_true, Bool.and_self]
    exact defineGroup_completes h hfree hrange
  intro s g tag y h hfree
  refine ⟨fun hst => ?_, fun hst hheld => ?_⟩
  · refine completes_general (b := .clearGroup g) h hfree rfl rfl (fun e => ?_) h.1 h.2
    change acceptClearGroup _ e g _ = _
    have hne : ((s.group g).st = .gathering) = False := eq_false hst
    simp only [acceptClearGroup, State.setEntry_group, hne, if_false]
    exact complete_modGroup_taken h e { tag := tag, body := .clearGroup g } .ok _ _ g _
  · obtain ⟨e, he⟩ := freeGeneral_of hfree
    have hexec := clearGroup_gathering (tag := tag) h he hst
    have hquiesce : (s.setEntry e (.reserved .control)).dev ≠ .quiescing := by
      change s.dev ≠ .quiescing
      rw [h.1]
      decide
    have hgroup := breakGroup_group hquiesce g (s.group g).arrived
    have haxis := breakGroup_axis hquiesce g (s.group g).arrived
    generalize breakGroup g (s.group g).arrived (s.setEntry e (.reserved .control)) = u at hexec hgroup haxis
    refine ⟨e, _, freeGeneral_some he, hexec, ?_, fun k hk => ?_, fun b hb => ?_, fun b hb => ?_, ?_, _,
      State.withReport_entry_same .., rfl, rfl, ?_, rfl⟩
    · rw [State.withReport_group, State.modGroup_group_same]
    · rw [State.withReport_group, State.modGroup_group, if_neg hk, hgroup, if_neg hk]
      rfl
    · obtain ⟨k, hk⟩ := Option.ne_none_iff_exists'.mp (hheld b hb)
      obtain ⟨lr, hhalted⟩ := (s.axis b).haltedBy_eq .syncBroken
      have hself : u.axis b = (s.axis b).haltedBy .syncBroken := by
        rw [haxis, if_pos hb, State.setEntry_axis, AxisBlock.memberHalted_of_held hk]
      rw [State.withReport_axis, State.modGroup_axis, hself, hhalted]
      exact ⟨rfl, rfl, rfl⟩
    · rw [State.withReport_axis, State.modGroup_axis, haxis, if_neg (by rw [hb]; decide)]
      rfl
    · rw [State.withReport_fillQueue]
      exact List.getLast?_concat
    · change BitVec.ofNat 32 (2 + setSize y.arrived * 2 ^ 8) = _
      rw [Nat.mul_comm]
      rfl

/-! ### O53: STOP_AXIS of a moving axis -/

theorem Entry.isFree_iff (v : Entry) : v.isFree = true ↔ v = .free := by cases v <;> simp [Entry.isFree]

section
variable {s : State} {a : Axis}

theorem requestChoice_slot (hreq : (s.axis a).stopReq = none) (hslot : s.entry (stopSlot a) = .free) :
    requestChoice a s = .takes (stopSlot a) := by
  simp only [requestChoice, hreq]
  exact if_pos ((Entry.isFree_iff _).mpr hslot)

theorem requestChoice_general (hreq : (s.axis a).stopReq = none) (hslot : s.entry (stopSlot a) ≠ .free) :
    requestChoice a s = generalChoice s := by
  simp only [requestChoice, hreq]
  exact if_neg (mt (Entry.isFree_iff _).mp hslot)

theorem requestChoice_pending {q : StopReq} (hreq : (s.axis a).stopReq = some q) : requestChoice a s = .keeps q.entry := by
  simp only [requestChoice, hreq]

end

theorem generalChoice_of {s : State} {e : Fin 24} (h : s.freeGeneral = some e) : generalChoice s = .takes e := by
  rw [generalChoice, h]

theorem judgeRecord_keeps {c : CtlRecord} {s : State} {e : Fin 24} (h : entryChoice c.body s = .keeps e)
    (hi : s.interp = .waiting) : judgeRecord c s = accept c e s := by
  rw [judgeRecord, h, State.with_waiting hi]

theorem judgeRecord_taken {c : CtlRecord} {s : State} {e : Fin 24} (h : entryChoice c.body s = .takes e)
    (hi : s.interp = .waiting) : judgeRecord c s = accept c e (s.setEntry e (.reserved .control)) := by
  rw [judgeRecord_takes h, State.with_waiting hi]

/-- A STOP_AXIS becomes the pending request of its moving axis. -/
def State.stops (s : State) (a : Axis) (tag : Word) (decel : Option Nat) (e : Fin 24) (superseded : Word) : State :=
  (s.modAxis a fun x => { x with
    st := .rampDown, decel := decel.getD (s.axis a).cfg.stopDecel
    stopReq := some { kind := .stop, tag := tag, entry := e, superseded := superseded } }).setEntry e (.reserved (.stopRequest a))

theorem acceptStopAxis_moving {s : State} {a : Axis} (hst : (s.axis a).st = .run ∨ (s.axis a).st = .rampDown) (tag : Word)
    (decel : Option Nat) (e : Fin 24) : accept { tag := tag, body := .stopAxis a decel } e s =
      s.stops a tag decel e (supersededTag (s.axis a)) := by
  change acceptStopAxis _ e a decel s = _
  obtain hst | hst := hst <;> simp only [acceptStopAxis, hst, pendStop, State.setEntry_modAxis, State.modAxis_modAxis] <;> rfl

/-- Settles O53. -/
theorem stopAxisRampsAMovingAxis : Obligations.StopAxisRampsAMovingAxis := by
  intro s a tag d x decel ramp hdev hi hd hst
  have hchecked : (CtlBody.stopAxis a d).checked = .stopAxis a d :=
    CtlBody.checked_of_inRange ((optIn_iff d 1 262144).mpr hd)
  have hexec : exec (.stopAxis a tag d) s = .next (settle (judgeRecord { tag := tag, body := .stopAxis a d } s)) :=
    (exec_instr tag (.stopAxis a d) s).trans (congrArg _ (deliverCommand_of_takes (takesControl_of hdev hi) hchecked))
  have hsettle : ∀ e k, settle (s.stops a tag d e k) = ramp e k := fun e k => by
    rw [settle_of_waiting (s := s.stops a tag d e k) hi, offIfAtRest_of_moving (b := a)]
    · rfl
    · rw [State.stops, State.setEntry_axis, State.modAxis_axis_same]
      rfl
  have htaken : ∀ e, x.stopReq = none → accept { tag := tag, body := .stopAxis a d } e (s.setEntry e (.reserved .control))
      = s.stops a tag d e 0 := fun e hreq => by
    rw [acceptStopAxis_moving (s := s.setEntry e _) hst, supersededTag, State.setEntry_axis, show (s.axis a).stopReq = none from hreq,
      State.stops, State.setEntry_modAxis, State.setEntry_setEntry]
    rfl
  refine ⟨fun hreq hslot => ?_, fun hreq hslot hfree => ?_, fun q hramp hreq => ?_⟩
  · rw [hexec, judgeRecord_taken (c := { tag := tag, body := .stopAxis a d }) (s := s) (requestChoice_slot hreq hslot) hi, htaken _ hreq, hsettle]
  · obtain ⟨e, he⟩ := freeGeneral_of hfree
    refine ⟨e, freeGeneral_some he, ?_⟩
    rw [hexec, judgeRecord_taken (c := { tag := tag, body := .stopAxis a d }) (s := s) ((requestChoice_general hreq hslot).trans (generalChoice_of he)) hi, htaken _ hreq, hsettle]
  · rw [hexec, judgeRecord_keeps (c := { tag := tag, body := .stopAxis a d }) (s := s) (requestChoice_pending hreq) hi, acceptStopAxis_moving hst, supersededTag,
      show (s.axis a).stopReq = some q from hreq]
    exact congrArg _ (hsettle _ _)

/-! ### O59: READ_STATUS, NOP and records marked invalid -/

theorem bitsOf_testBit (l : List Bool) (i : Nat) : (bitsOf l).testBit i = l.getD i false := by
  induction l generalizing i with
  | nil => simp [bitsOf]
  | cons b l ih =>
    have hlow := bnat_le b
    cases i with
    | zero =>
      have hmod : (bnat b + 2 * bitsOf l) % 2 = bnat b := by omega
      rw [bitsOf, Nat.testBit_zero, hmod]
      cases b <;> rfl
    | succ i =>
      have hdiv : (bnat b + 2 * bitsOf l) / 2 = bitsOf l := by omega
      rw [bitsOf, Nat.testBit_succ, hdiv, ih]
      rfl

theorem bitsOf_lt (l : List Bool) : bitsOf l < 2 ^ l.length := by
  induction l with
  | nil => decide
  | cons b l ih =>
    have hlow := bnat_le b
    rw [bitsOf, List.length_cons, pow_succ]
    omega

theorem latch_getD (x : AxisBlock) (f : Latch → Bool) (src : Source) :
    (x.latches.toList.map f).getD (sourceIx src).val false = f (x.latch src) := by
  simp [AxisBlock.latch, List.getD]

/-- The bits of the second word of a STATUS report: the latch flags, the overrun flags and the levels. -/
theorem statusWordB_bits (s : State) (a : Axis) :
    (∀ i, i < 6 → (statusWordB s a).getLsbD i = ((s.axis a).latches.toList.map Latch.flag).getD i false) ∧
    (∀ i, i < 6 → (statusWordB s a).getLsbD (6 + i) = ((s.axis a).latches.toList.map Latch.overrun).getD i false) ∧
    (∀ i, i < 12 → (statusWordB s a).getLsbD (12 + i) = (statusLevels s a).getD i false) ∧
    (statusWordB s a).extractLsb' 24 8 = BitVec.ofNat 8 (s.axis a).quadErrs := by
  have hflags := bitsOf_lt ((s.axis a).latches.toList.map Latch.flag)
  have hoverruns := bitsOf_lt ((s.axis a).latches.toList.map Latch.overrun)
  have hlevels := bitsOf_lt (statusLevels s a)
  simp only [List.length_map, Vector.length_toList] at hflags hoverruns
  have hten : (statusLevels s a).length = 10 := rfl
  rw [hten] at hlevels
  have htest := fun i => bitsOf_testBit ((s.axis a).latches.toList.map Latch.flag) i
  have htest' := fun i => bitsOf_testBit ((s.axis a).latches.toList.map Latch.overrun) i
  have htest'' := fun i => bitsOf_testBit (statusLevels s a) i
  -- the number as digits to the bases 2 ^ 6, 2 ^ 6 and 2 ^ 12
  have hword : statusWordB s a = BitVec.ofNat 32 (2 ^ 6 * (2 ^ 6 * (2 ^ 12 * (s.axis a).quadErrs + bitsOf (statusLevels s a))
      + bitsOf ((s.axis a).latches.toList.map Latch.overrun)) + bitsOf ((s.axis a).latches.toList.map Latch.flag)) := by
    refine congrArg (BitVec.ofNat 32) ?_
    ring
  generalize bitsOf ((s.axis a).latches.toList.map Latch.flag) = flags at *
  generalize bitsOf ((s.axis a).latches.toList.map Latch.overrun) = overruns at *
  generalize bitsOf (statusLevels s a) = levels at *
  have hlevels' : levels < 2 ^ 12 := by omega
  refine ⟨fun i hi => ?_, fun i hi => ?_, fun i hi => ?_, ?_⟩
  · rw [hword, BitVec.getLsbD_ofNat, Nat.testBit_two_pow_mul_add _ hflags, if_pos hi, htest, decide_eq_true (by omega),
      Bool.true_and]
  · rw [hword, BitVec.getLsbD_ofNat, Nat.testBit_two_pow_mul_add _ hflags, if_neg (by omega), Nat.add_sub_cancel_left,
      Nat.testBit_two_pow_mul_add _ hoverruns, if_pos hi, htest', decide_eq_true (by omega), Bool.true_and]
  · rw [hword, BitVec.getLsbD_ofNat, Nat.testBit_two_pow_mul_add _ hflags, if_neg (by omega),
      Nat.testBit_two_pow_mul_add _ hoverruns, if_neg (by omega), Nat.testBit_two_pow_mul_add _ hlevels', if_pos (by omega), htest'',
      decide_eq_true (by omega), Bool.true_and]
    congr 1
    omega
  · rw [hword]
    apply BitVec.eq_of_toNat_eq
    rw [BitVec.extractLsb'_toNat, BitVec.toNat_ofNat, BitVec.toNat_ofNat, Nat.shiftRight_eq_div_pow]
    omega

theorem AxisState.code_lt (st : AxisState) : st.code < 8 := by cases st <;> decide

theorem statusWordA_fields {x : AxisBlock} (hrate : x.rate ≤ 262144) (hfurther : x.further ≤ 255) :
    (statusWordA x).extractLsb' 0 19 = BitVec.ofNat 19 x.rate ∧ (statusWordA x).extractLsb' 20 3 = BitVec.ofNat 3 x.st.code ∧
      (statusWordA x).extractLsb' 24 8 = BitVec.ofNat 8 x.further := by
  have hcode := x.st.code_lt
  refine ⟨extractLsb'_ofNat_eq (by omega) ?_, extractLsb'_ofNat_eq (by omega) ?_, extractLsb'_ofNat_eq (by omega) ?_⟩
  all_goals omega

theorem acceptReadStatus_taken {s : State} (h : s.Ready) (e : Fin 24) (a : Axis) (tag : Word) :
    accept { tag := tag, body := .readStatus a } e (s.setEntry e (.reserved .control)) = s.withReport e {
      seq := 0, source := .control, kind := .status, status := .ok, cause := (s.axis a).cause, echo := 0x1A
      flushed := (s.axis a).staging.length, ringHead := (s.fetcher (axisRing a)).head, tag := tag, time := s.time
      cmd := (s.axis a).cmdPos, enc := (s.axis a).encPos, wordA := statusWordA (s.axis a), wordB := statusWordB s a } := by
  change fill e _ (s.setEntry e _) = _
  rw [fill_eq_withReport e _ (s := s.setEntry e _) (Ready.not_failed h), State.setEntry_withReport]
  rfl

theorem CtlBody.checked_invalid (k : BitVec 5) (i : BitVec 8) : (CtlBody.invalid k i).checked = .invalid k i := rfl

/-- The report of a record marked invalid (R156). -/
theorem acceptInvalid_taken {s : State} (h : s.Ready) (e : Fin 24) (kind : BitVec 5) (index : BitVec 8) (tag : Word) :
    accept { tag := tag, body := .invalid kind index } e (s.setEntry e (.reserved .control)) = s.withReport e (
      if kind = 0x1A then { ctlReport s (CtlBody.invalid kind index).axis? tag kind .invalid 0 0 0 0 with
        kind := .status, cause := (CtlBody.invalid kind index).axis?.bind fun a => (s.axis a).cause }
      else ctlReport s (CtlBody.invalid kind index).axis? tag kind .invalid 0 0 0 0) := by
  change acceptInvalid _ e (s.setEntry e _) = _
  unfold acceptInvalid
  by_cases hkind : kind = 0x1A
  · refine (if_pos hkind).trans ?_
    rw [if_pos hkind, fill_eq_withReport e _ (s := s.setEntry e _) (Ready.not_failed h), State.setEntry_withReport]
    refine congrArg (State.withReport s e) ?_
    cases (CtlBody.invalid kind index).axis? <;> rfl
  · refine (if_neg hkind).trans ?_
    rw [if_neg hkind]
    exact completePlain_taken h e { tag := tag, body := .invalid kind index } .invalid

theorem kindNamesAxis_eq (k : BitVec 5) : kindNamesAxis k =
    (k == 0x10 || k == 0x12 || k == 0x13 || k == 0x14 || k == 0x15 || k == 0x16 || k == 0x19 || k == 0x1A) := by
  revert k
  decide

theorem isStopKind_iff (k : BitVec 5) : isStopKind k = true ↔ k = 0x14 ∨ k = 0x15 := by simp [isStopKind]

/-- The entry a record marked invalid uses (R154). -/
theorem entryChoice_invalid_slot {s : State} {kind : BitVec 5} {index : BitVec 8} {a : Axis}
    (ha : (CtlBody.invalid kind index).axis? = some a) (hstop : isStopKind kind = true) (hslot : s.entry (stopSlot a) = .free) :
    entryChoice (.invalid kind index) s = .takes (stopSlot a) := by
  simp only [entryChoice, ha, hstop, if_true]
  exact if_pos ((Entry.isFree_iff _).mpr hslot)

theorem entryChoice_invalid_general {s : State} {kind : BitVec 5} {index : BitVec 8}
    (h : ∀ a, (CtlBody.invalid kind index).axis? = some a → isStopKind kind = true → s.entry (stopSlot a) ≠ .free) :
    entryChoice (.invalid kind index) s = generalChoice s := by
  cases ha : (CtlBody.invalid kind index).axis? with
  | none => simp only [entryChoice, ha]
  | some a =>
    simp only [entryChoice, ha]
    split
    next hstop => exact if_neg (mt (Entry.isFree_iff _).mp (h a ha hstop))
    next => rfl

/-- Settles O59. -/
theorem recordsTheInterpreterActsOnItself : Obligations.RecordsTheInterpreterActsOnItself := by
  refine ⟨?status, fun s tag h hfree => ?_, ?invalid⟩
  case status =>
    intro s a tag x h hfree hrate hfurther
    obtain ⟨e, he, hexec⟩ := completes_general (b := .readStatus a) h hfree rfl rfl (fun e => acceptReadStatus_taken h e a tag) h.1 h.2
    obtain ⟨hflags, hoverruns, hlevels, herrs⟩ := statusWordB_bits s a
    obtain ⟨hfirst, hstate, hlast⟩ := statusWordA_fields hrate hfurther
    refine ⟨e, _, _, he, hexec, hfirst, hstate, hlast, fun src => ?_, fun src => ?_, hlevels 0 (by decide), hlevels 1 (by decide),
      hlevels 2 (by decide), hlevels 3 (by decide), hlevels 4 (by decide), hlevels 5 (by decide), fun k => ?_, herrs⟩
    · rw [hflags _ (sourceIx src).isLt, latch_getD]
    · rw [hoverruns _ (sourceIx src).isLt, latch_getD]
    · fin_cases k
      · exact hlevels 6 (by decide)
      · exact hlevels 7 (by decide)
      · exact hlevels 8 (by decide)
      · exact hlevels 9 (by decide)
  case invalid =>
    intro s kind index tag names a? stop report done h
    have haxis : (CtlBody.invalid kind index).axis? = a? := by
      rw [CtlBody.axis?, kindNamesAxis_eq]
    have hexec : exec (.invalidControlRecord kind index tag) s =
        .next (settle (judgeRecord { tag := tag, body := .invalid kind index } s)) :=
      (exec_instr tag (.invalid kind index) s).trans
        (congrArg _ (deliverCommand_of_takes (takesControl_of (.inl h.1) h.2) (CtlBody.checked_invalid ..)))
    have hdone : ∀ e, entryChoice (.invalid kind index) s = .takes e →
        exec (.invalidControlRecord kind index tag) s = .next (done e) := fun e he => by
      rw [hexec, judgeRecord_taken (c := { tag := tag, body := .invalid kind index }) he h.2, acceptInvalid_taken h, haxis]
      exact congrArg _ (settle_of_online (s := done e) h.1 h.2)
    refine ⟨fun a ha hstop hslot => hdone _ (entryChoice_invalid_slot (haxis.trans ha) ((isStopKind_iff _).mpr hstop) hslot),
      fun hno hfree => ?_⟩
    obtain ⟨e, he⟩ := freeGeneral_of hfree
    refine ⟨e, freeGeneral_some he, hdone e ((entryChoice_invalid_general fun a ha hstop => ?_).trans (generalChoice_of he))⟩
    exact hno a (haxis.symm.trans ha) ((isStopKind_iff _).mp hstop)
  · exact completes_general (b := .nop) h hfree rfl rfl (fun e => completePlain_taken h e { tag := tag, body := .nop } .ok) h.1 h.2

end Sys2Proof.Machine
end

section
/-! PROOFS. O54 and O55: STOP_AXIS and ABORT_AXIS that end at once. -/

namespace Sys2Proof.Machine
open Sys2Proof

/-! ### The reports of a rest instant -/

theorem restReport_eq (s : State) (a : Axis) (q : StopReq) : restReport s a q =
    ctlReport s (some a) q.tag q.kind.code .ok (s.axis a).staging.length (s.fetcher (axisRing a)).tail
      (((s.axis a).staging.map AxisRecord.tag).getLast?.getD 0) q.superseded := by
  rw [← AxisBlock.lastTag_eq]
  simp only [restReport, controlReport, ctlReport, Option.map_some, Option.getD_some]
  rfl

/-- What the reports of a rest instant depend on. -/
theorem restReports_congr {s u : State} {a : Axis} (htime : u.time = s.time) (hcmd : (u.axis a).cmdPos = (s.axis a).cmdPos)
    (henc : (u.axis a).encPos = (s.axis a).encPos) (hactive : (u.axis a).active = (s.axis a).active)
    (hheld : (u.axis a).held = (s.axis a).held) (hstaging : (u.axis a).staging = (s.axis a).staging)
    (htail : (u.fetcher (axisRing a)).tail = (s.fetcher (axisRing a)).tail) (q : StopReq) :
    restReports u a q = restReports s a q := by
  simp only [restReports, activeReport, heldReport, restReport, axisReport, controlReport, AxisBlock.lastTag, Option.map_some,
    Option.getD_some, htime, hcmd, henc, hactive, hheld, hstaging, htail]

theorem restReports_of_active {s : State} {a : Axis} {g : Segment} (hactive : (s.axis a).active = some g)
    (hheld : (s.axis a).held = none) (q : StopReq) : restReports s a q =
      [(g.entry, axisReport s a .segment q.kind.status none g.record.id 0 0 g.words.1 g.words.2), (q.entry, restReport s a q)] := by
  simp only [restReports, activeReport, heldReport, hactive, hheld, List.append_nil, List.cons_append, List.nil_append]

theorem restReports_of_none {s : State} {a : Axis} (hactive : (s.axis a).active = none) (hheld : (s.axis a).held = none)
    (q : StopReq) : restReports s a q = [(q.entry, restReport s a q)] := by
  simp only [restReports, activeReport, heldReport, hactive, hheld, List.nil_append]

theorem restReports_of_held {s : State} {a : Axis} {h : Held} (hactive : (s.axis a).active = none)
    (hheld : (s.axis a).held = some h) (q : StopReq) : restReports s a q =
      [(h.entry, axisReport s a .segment q.kind.status none h.record.id 0 0 0 0), (q.entry, restReport s a q)] := by
  simp only [restReports, activeReport, heldReport, hactive, hheld, List.cons_append, List.nil_append]

theorem AxisBlock.rested_eq (x : AxisBlock) : ∃ lr, x.rested = { x with
    active := none, held := none, lastRetired := lr, staging := [], stopReq := none, st := .idle } := by
  obtain ⟨lr, hboth⟩ := x.bothRetired_eq
  exact ⟨lr, by rw [AxisBlock.rested, hboth]⟩

/-! ### The entry and the acceptance of a request -/

/-- The entry that a request takes where none is pending (R47). -/
def State.TakesForStop (s : State) (a : Axis) (e : Fin 24) : Prop :=
  if s.entry (stopSlot a) = .free then e = stopSlot a else s.FreeGeneral e

theorem State.TakesForStop.free {s : State} {a : Axis} {e : Fin 24} (h : s.TakesForStop a e) : s.entry e = .free := by
  unfold State.TakesForStop at h
  split at h
  next hslot => rw [h, hslot]
  next => exact h.2

theorem stopSlot_ne_faultSlot (a b : Axis) : stopSlot a ≠ faultSlot b := by
  revert a b
  decide

theorem State.TakesForStop.ne_faultSlot {s : State} {a b : Axis} {e : Fin 24} (h : s.TakesForStop a e) : faultSlot b ≠ e := by
  unfold State.TakesForStop at h
  split at h
  next => exact h ▸ (stopSlot_ne_faultSlot a b).symm
  next => exact faultSlot_ne_general h.1

theorem requestChoice_takes {s : State} {a : Axis} (hreq : (s.axis a).stopReq = none) (h : ∃ e, s.TakesForStop a e) :
    ∃ e, s.TakesForStop a e ∧ requestChoice a s = .takes e := by
  unfold State.TakesForStop at h ⊢
  by_cases hslot : s.entry (stopSlot a) = .free
  · exact ⟨stopSlot a, by rw [if_pos hslot], requestChoice_slot hreq hslot⟩
  · simp only [if_neg hslot] at h ⊢
    obtain ⟨e, he⟩ := freeGeneral_of h
    exact ⟨e, freeGeneral_some he, (requestChoice_general hreq hslot).trans (generalChoice_of he)⟩

/-- STOP_AXIS or ABORT_AXIS. -/
def stopBody (abort : Bool) (a : Axis) (d : Option Nat) : CtlBody := if abort then .abortAxis a else .stopAxis a d

/-- The kind of the request it makes. -/
def stopKind (abort : Bool) : StopKind := if abort then .abort else .stop

/-- What it does to its axis before the rest instant (R50). -/
def AxisBlock.stilled (abort : Bool) (x : AxisBlock) : AxisBlock := if abort then x.still else x

theorem AxisBlock.stilled_keeps (abort : Bool) (x : AxisBlock) :
    (x.stilled abort).st = x.st ∧ (x.stilled abort).cmdPos = x.cmdPos ∧ (x.stilled abort).encPos = x.encPos ∧
      (x.stilled abort).active = x.active ∧ (x.stilled abort).held = x.held ∧ (x.stilled abort).staging = x.staging ∧
      (x.stilled abort).timer = x.timer ∧ (x.stilled abort).latches = x.latches := by
  cases abort <;> exact ⟨rfl, rfl, rfl, rfl, rfl, rfl, rfl, rfl⟩

section
variable {s : State} {a : Axis} {abort : Bool} {tag : Word} {d : Option Nat} {e : Fin 24}

theorem acceptStop_refused (hst : (s.axis a).st = .off ∨ (s.axis a).st = .halted) :
    accept { tag := tag, body := stopBody abort a d } e s =
      completePlain { tag := tag, body := stopBody abort a d } e .notAllowed s := by
  obtain hst | hst := hst <;> cases abort
  · change acceptStopAxis _ e a d s = _
    simp only [acceptStopAxis, hst, stopBody, Bool.false_eq_true, if_false]
  · change acceptAbortAxis _ e a s = _
    simp only [acceptAbortAxis, hst, stopBody, if_true]
  · change acceptStopAxis _ e a d s = _
    simp only [acceptStopAxis, hst, stopBody, Bool.false_eq_true, if_false]
  · change acceptAbortAxis _ e a s = _
    simp only [acceptAbortAxis, hst, stopBody, if_true]

theorem acceptStop_rests (hst : (s.axis a).st = .idle ∨ (s.axis a).st = .dwell ∨ (s.axis a).st = .waitEvent ∨ (s.axis a).st = .waitSync) :
    accept { tag := tag, body := stopBody abort a d } e s =
      restInstant a { kind := stopKind abort, tag := tag, entry := e, superseded := supersededTag (s.axis a) }
        (s.modAxis a (AxisBlock.stilled abort)) := by
  cases abort with
  | false =>
    have hmod : s.modAxis a (AxisBlock.stilled false) = s := State.modAxis_self rfl
    rw [hmod]
    change acceptStopAxis _ e a d s = _
    obtain hst | hst | hst | hst := hst <;> simp only [acceptStopAxis, hst] <;> rfl
  | true =>
    change acceptAbortAxis _ e a s = _
    obtain hst | hst | hst | hst := hst <;> simp only [acceptAbortAxis, hst] <;> rfl

/-- An ABORT_AXIS of a moving axis (R50). -/
theorem acceptAbort_moving (hst : (s.axis a).st = .run ∨ (s.axis a).st = .rampDown) :
    accept { tag := tag, body := .abortAxis a } e s =
      restInstant a { kind := .abort, tag := tag, entry := e, superseded := supersededTag (s.axis a) }
        (s.modAxis a AxisBlock.still) := by
  change acceptAbortAxis _ e a s = _
  obtain hst | hst := hst <;> simp only [acceptAbortAxis, hst]

theorem exec_stopBody (hdev : s.dev = .online ∨ s.dev = .quiescing) (hi : s.interp = .waiting)
    (hd : abort = false → ∀ v, d = some v → 1 ≤ v ∧ v ≤ 262144) :
    exec (if abort then .abortAxis a tag else .stopAxis a tag d) s =
      .next (settle (judgeRecord { tag := tag, body := stopBody abort a d } s)) := by
  have hchecked : (stopBody abort a d).checked = stopBody abort a d := by
    cases abort with
    | true => rfl
    | false => exact CtlBody.checked_of_inRange ((optIn_iff d 1 262144).mpr (hd rfl))
  have hinstr : (if abort then .abortAxis a tag else .stopAxis a tag d) = (stopBody abort a d).instr tag := by cases abort <;> rfl
  rw [hinstr, exec_instr, deliverCommand_of_takes (takesControl_of hdev hi) hchecked]

theorem entryChoice_stopBody (abort : Bool) (a : Axis) (d : Option Nat) (s : State) :
    entryChoice (stopBody abort a d) s = requestChoice a s := by cases abort <;> rfl

end

/-- The state in which a request has its entry and its axis is still. -/
def State.stopReady (s : State) (a : Axis) (abort : Bool) (e : Fin 24) : State :=
  (s.setEntry e (.reserved .control)).modAxis a (AxisBlock.stilled abort)

section
variable (s : State) (a : Axis) (abort : Bool) (e : Fin 24)

theorem State.stopReady_axis : (s.stopReady a abort e).axis a = (s.axis a).stilled abort := State.modAxis_axis_same ..

theorem State.stopReady_axis_ne {b : Axis} (h : b ≠ a) : (s.stopReady a abort e).axis b = s.axis b := State.modAxis_axis_ne _ _ h

theorem restReports_stopReady (q : StopReq) : restReports (s.stopReady a abort e) a q = restReports s a q := by
  obtain ⟨-, hcmd, henc, hactive, hheld, hstaging, -, -⟩ := (s.axis a).stilled_keeps abort
  refine restReports_congr (s := s) (u := s.stopReady a abort e) rfl ?_ ?_ ?_ ?_ ?_ rfl q
  all_goals rw [State.stopReady_axis]; assumption

end

/-- The entries that the other arrived members' reports fill, where their records' entries are taken and not the one in question. -/
theorem members_entries_ne {s u : State} {g : GroupIx} {a : Axis} {e : Fin 24} (hslot : ∀ b, faultSlot b ≠ e)
    (hu : ∀ b, b ≠ a → u.axis b = s.axis b)
    (hothers : ∀ b, b ≠ a → setHas (s.group g).arrived b = true → (s.axis b).stopReq = none ∧ (s.axis b).active = none ∧
      ∃ k, (s.axis b).held = some k ∧ k.entry ≠ e)
    {order : List Axis} (hperm : order.Perm (setList (setErase (s.group g).arrived a))) {p : Fin 24 × Report}
    (hp : p ∈ order.flatMap (memberReports u)) : p.1 ≠ e := by
  obtain ⟨b, hb, hp⟩ := List.mem_flatMap.mp hp
  have hmem := mem_setList.mp (hperm.mem_iff.mp hb)
  rw [setHas_setErase, Bool.and_eq_true, decide_eq_true_eq] at hmem
  obtain ⟨harrived, hne⟩ := hmem
  obtain ⟨hreq, hactive, k, hk, hentry⟩ := hothers b hne harrived
  rw [← hu b hne] at hreq hactive hk
  obtain hp | hp := memberReports_entries hk hactive hreq hp
  · rw [hp]
    exact hentry
  · rw [hp]
    exact hslot b

/-- Settles O54. -/
theorem stopAndAbortOfAnAxisAtRest : Obligations.StopAndAbortOfAnAxisAtRest := by
  intro s a tag abort d x c kind takes retired request hi hdev hreq htakes hd
  have hdev' : s.dev = .online ∨ s.dev = .quiescing := hdev.imp_right And.left
  have hfail : s.dev ≠ .failed := by
    obtain h | h := hdev' <;> rw [h] <;> decide
  obtain ⟨e, he, hchoice⟩ := requestChoice_takes hreq htakes
  -- the request with its entry
  generalize hq : ({ kind := stopKind abort, tag := tag, entry := e, superseded := 0 } : StopReq) = q
  have hexec : exec c s = .next (settle (accept { tag := tag, body := stopBody abort a d } e (s.setEntry e (.reserved .control)))) := by
    rw [exec_stopBody hdev' hi hd, judgeRecord_taken (c := { tag := tag, body := stopBody abort a d })
      ((entryChoice_stopBody ..).trans hchoice) hi]
  have hsettle : ∀ u : State, u.dev = s.dev → u.interp = s.interp → (s.dev = .online ∨ ∀ b, (s.axis b).st.moving = true → u.axis b = s.axis b) →
      settle u = u := fun u hudev huinterp hkept => by
    rw [settle_of_waiting (huinterp.trans hi)]
    obtain honline | ⟨hquiesce, b, hb⟩ := hdev
    · refine offIfAtRest_of_dev ?_
      rw [hudev, honline]
      decide
    · obtain honline | hkept := hkept
      · rw [honline] at hquiesce
        exact absurd hquiesce (by decide)
      · exact offIfAtRest_of_moving (b := b) (by rw [hkept b hb]; exact hb)
  have hstatus : q.kind.status = if abort then .aborted else .stopped := by
    rw [← hq]
    cases abort <;> rfl
  have hrequest : restReport s a q = request := by
    rw [restReport_eq, ← hq]
    cases abort <;> rfl
  have hentry : q.entry = e := by rw [← hq]
  have hrests : (x.st = .idle ∨ x.st = .dwell ∨ x.st = .waitEvent ∨ x.st = .waitSync) →
      accept { tag := tag, body := stopBody abort a d } e (s.setEntry e (.reserved .control)) = restInstant a q (s.stopReady a abort e) :=
    fun hst => by
      rw [acceptStop_rests (s := s.setEntry e _) hst, supersededTag, State.setEntry_axis, show (s.axis a).stopReq = none from hreq, ← hq]
      rfl
  have hreports := restCore_reports (s := s.stopReady a abort e) hfail a q
  rw [restReports_stopReady] at hreports
  obtain ⟨hst', hcmd, henc, -, hheld', -, htimer, hlatches⟩ := (s.axis a).stilled_keeps abort
  have hself := restCore_axis a q (s.stopReady a abort e) a
  obtain ⟨lr, hrested⟩ := ((s.axis a).stilled abort).rested_eq
  rw [if_pos rfl, State.stopReady_axis, hrested] at hself
  have hother : ∀ b, b ≠ a → (restCore a q (s.stopReady a abort e)).axis b = s.axis b := fun b hb => by
    rw [restCore_axis, if_neg hb, State.stopReady_axis_ne _ _ _ _ hb]
  have hrest := restCore_rest a q (s.stopReady a abort e)
  have hfetch := restCore_fetcher a q (s.stopReady a abort e)
  have hgroup := restCore_group a q (s.stopReady a abort e)
  have hgroups : (restCore a q (s.stopReady a abort e)).groups = s.groups := by
    refine Vector.ext fun i hi => ?_
    exact hgroup ⟨i, hi⟩
  refine ⟨fun hst => ⟨e, he, ?_⟩, fun hst hheld => ?_, fun h honline hst hactive hheld hfree hgeneral hgather hothers => ?_⟩
  · have hdone : accept { tag := tag, body := stopBody abort a d } e (s.setEntry e (.reserved .control)) =
        s.withReport e (ctlReport s (some a) tag kind .notAllowed 0 0 0 0) := by
      rw [acceptStop_refused (s := s.setEntry e _) hst, completePlain, complete_eq _ e .notAllowed 0 0 0 0 (s := s.setEntry e _) hfail,
        State.setEntry_withReport, ctlReport_setEntry]
      cases abort <;> rfl
    rw [hexec, hdone, hsettle (s.withReport e _) rfl rfl (.inr fun _ _ => rfl)]
  · have hstill : ((s.stopReady a abort e).axis a).held = none := by rw [State.stopReady_axis, hheld']; exact hheld
    have hnotmoving : x.st.moving = false := by obtain hst | hst | hst := hst <;> rw [hst] <;> rfl
    rw [hrests (hst.imp_right fun h => h.imp_right .inl), restInstant_of_not_waitSync (.inr hstill)] at hexec
    generalize restCore a q (s.stopReady a abort e) = u at hexec hreports hself hother hrest hfetch hgroups
    rw [hsettle u hrest.dev hrest.interp (.inr fun b hb => hother b fun heq => by
      rw [heq, show (s.axis a).st.moving = false from hnotmoving] at hb
      exact absurd hb (by decide))] at hexec
    refine ⟨e, u, he, hexec, by rw [hself], by rw [hself], by rw [hself], by rw [hself], by rw [hself]; exact htimer,
      by rw [hself]; exact hcmd, by rw [hself]; exact hlatches, hfetch, ?_, fun hactive => ?_, fun g hactive => ⟨?_, fun hne => ?_,
        fun n k hbody => ?_, fun w hbody => ?_⟩, hother, hgroups⟩
    · rw [← hentry, ← hrequest]
      exact hreports.entry_last
    · rw [restReports_of_none hactive hheld, hentry] at hreports
      exact hreports.queue
    · rw [restReports_of_active hactive hheld, hentry] at hreports
      exact hreports.queue
    · rw [restReports_of_active hactive hheld, hstatus] at hreports
      have hsplit : e ≠ g.entry := fun heq => hne (heq ▸ he.free)
      exact hreports.entry_of_split (l := []) (k := [_]) (by rw [hentry]; simpa using hsplit)
    · simp only [Segment.words, hbody]
    · simp only [Segment.words, hbody]
  · have hwaits : ((s.stopReady a abort e).axis a).waitsOn = some h.group := by
      have hsync : ((s.axis a).stilled abort).st = .waitSync := hst'.trans hst
      have hholds : ((s.axis a).stilled abort).held = some h := hheld'.trans hheld
      rw [State.stopReady_axis, AxisBlock.waitsOn, if_pos hsync, hholds]
      rfl
    have hdepart : restInstant a q (s.stopReady a abort e) =
        breakGroup h.group (setErase (s.group h.group).arrived a) (restCore a q (s.stopReady a abort e)) := by
      rw [restInstant_eq, hwaits]
      refine (if_pos ((congrArg Group.st (hgroup h.group)).trans hgather)).trans ?_
      rw [hgroup]
      rfl
    rw [hrests (.inr (.inr (.inr hst))), hdepart] at hexec
    rw [restReports_of_held hactive hheld, hstatus, hrequest, hentry] at hreports
    generalize restCore a q (s.stopReady a abort e) = u at hexec hreports hself hother hrest hfetch hgroup
    have hudev : u.dev = .online := hrest.dev.trans honline
    have hquiesce : u.dev ≠ .quiescing := by rw [hudev]; decide
    obtain ⟨order, hperm, hbreak⟩ := breakGroup_reports hquiesce (by rw [hudev]; decide) h.group (setErase (s.group h.group).arrived a)
    have hbaxis := breakGroup_axis hquiesce h.group (setErase (s.group h.group).arrived a)
    have hbgroup := breakGroup_group hquiesce h.group (setErase (s.group h.group).arrived a)
    have hbfetch := breakGroup_fetcher hquiesce h.group (m := setErase (s.group h.group).arrived a) (b := a) (by simp [setHas_setErase])
    have hbrest := (breakGroup_seq h.group (setErase (s.group h.group).arrived a) u).rest
    generalize breakGroup h.group (setErase (s.group h.group).arrived a) u = t at hexec hbreak hbaxis hbgroup hbfetch hbrest
    rw [hsettle t (hbrest.dev.trans hrest.dev) (hbrest.interp.trans hrest.interp) (.inl honline)] at hexec
    have hall := hreports.trans hbreak
    have haxis : t.axis a = u.axis a := by rw [hbaxis, if_neg (by simp [setHas_setErase])]
    rw [hself] at haxis
    have hmember : ∀ b, b ≠ a → setHas (s.group h.group).arrived b = true → setHas (setErase (s.group h.group).arrived a) b = true :=
      fun b hb harrived => by simp [setHas_setErase, harrived, hb]
    have hsplit : e ≠ h.entry := fun heq => hfree (heq ▸ he.free)
    have hfillsHeld : ∀ p ∈ order.flatMap (memberReports u), p.1 ≠ h.entry := fun p hp =>
      members_entries_ne (fun b => faultSlot_ne_general hgeneral) hother (fun b hb harrived => by
        obtain ⟨hr, ha, k, hk, hne, -⟩ := hothers b hb harrived
        exact ⟨hr, ha, k, hk, hne⟩) hperm hp
    have hfillsRequest : ∀ p ∈ order.flatMap (memberReports u), p.1 ≠ e := fun p hp =>
      members_entries_ne (fun b => he.ne_faultSlot) hother (fun b hb harrived => by
        obtain ⟨hr, ha, k, hk, -, hne⟩ := hothers b hb harrived
        exact ⟨hr, ha, k, hk, fun heq => hne (heq ▸ he.free)⟩) hperm hp
    refine ⟨e, t, (order.flatMap (memberReports u)).map Prod.fst, he, hexec, by rw [haxis], by rw [haxis], by rw [haxis], by rw [haxis],
      by rw [haxis]; exact htimer, by rw [haxis]; exact hcmd, by rw [haxis]; exact henc, ?_, ?_, ?_, ?_, ?_, fun k hk => ?_,
      fun b hb harrived => ?_, fun b hb harrived => ?_⟩
    · rw [hbfetch, hfetch]
      rfl
    · rw [hall.queue, List.map_append, ← List.append_assoc]
      rfl
    · refine hall.entry_of_split (l := []) (k := (e, request) :: _) fun p hp => ?_
      obtain rfl | hp := List.mem_cons.mp hp
      · exact hsplit
      · exact hfillsHeld p hp
    · exact hall.entry_of_split (l := [_]) (k := _) hfillsRequest
    · rw [hbgroup, if_pos rfl, hgroup]
      rfl
    · rw [hbgroup, if_neg hk, hgroup]
      rfl
    · obtain ⟨-, -, k, hk, -⟩ := hothers b hb harrived
      rw [← hother b hb] at hk
      obtain ⟨lr', hhalted⟩ := (u.axis b).haltedBy_eq .syncBroken
      refine ⟨?_, ?_, ?_, ?_, ?_⟩
      case refine_5 =>
        rw [List.map_flatMap]
        exact List.mem_flatMap.mpr ⟨b, hperm.mem_iff.mpr (mem_setList.mpr (hmember b hb harrived)), faultSlot_mem_memberReports hk⟩
      all_goals rw [hbaxis, if_pos (hmember b hb harrived), AxisBlock.memberHalted_of_held hk, hhalted]
    · rw [hbaxis, if_neg (by simp [setHas_setErase, harrived]), hother b hb]

/-! ### O55: ABORT_AXIS of a moving axis -/

/-- The entry that an ABORT_AXIS has: that of the pending request, or the one it takes. -/
theorem judgeRecord_abort {s : State} {a : Axis} (hi : s.interp = .waiting) (tag : Word)
    (h : (s.axis a).stopReq = none → ∃ e, s.TakesForStop a e) :
    ∃ (e : Fin 24) (w : State), (w = s ∨ w = s.setEntry e (.reserved .control)) ∧
      judgeRecord { tag := tag, body := .abortAxis a } s = accept { tag := tag, body := .abortAxis a } e w ∧
      (∀ q, (s.axis a).stopReq = some q → e = q.entry) ∧ ((s.axis a).stopReq = none → s.TakesForStop a e) := by
  cases hreq : (s.axis a).stopReq with
  | none =>
    obtain ⟨e, he, hchoice⟩ := requestChoice_takes hreq (h hreq)
    exact ⟨e, _, .inr rfl, judgeRecord_taken (c := { tag := tag, body := .abortAxis a }) hchoice hi, fun q hq => absurd hq (Option.some_ne_none q).symm, fun _ => he⟩
  | some q =>
    exact ⟨q.entry, s, .inl rfl, judgeRecord_keeps (c := { tag := tag, body := .abortAxis a }) (requestChoice_pending hreq) hi,
      fun q' hq => by rw [Option.some.inj hq], fun hq => absurd hq (Option.some_ne_none q)⟩

/-- An axis either stays as it is or goes to OFF. -/
theorem offIfAtRest_axis_cases (s : State) (a : Axis) :
    (offIfAtRest s).axis a = s.axis a ∨ (offIfAtRest s).axis a = (s.axis a).toOff.disarm := by
  by_cases hdev : s.dev = .quiescing ∨ s.dev = .failed
  · by_cases hrest : ∀ b, (s.axis b).st.moving = false
    · exact .inr (offIfAtRest_axis_of_rest hdev hrest a)
    · obtain ⟨b, hb⟩ := not_forall.mp hrest
      exact .inl (by rw [offIfAtRest_of_moving (b := b) (Bool.not_eq_false _ ▸ hb)])
  · exact .inl (by rw [offIfAtRest_of_dev hdev])

/-- Settles O55. -/
theorem abortAxisStopsAMovingAxis : Obligations.AbortAxisStopsAMovingAxis := by
  intro s a tag g m x takes superseded alone hdev hi hst hactive hbody hheld hfree hpending htakes
  have hfail : s.dev ≠ .failed := by
    obtain h | h := hdev <;> rw [h] <;> decide
  have hiff : ∀ e, takes e ↔ (∀ q, (s.axis a).stopReq = some q → e = q.entry) ∧ ((s.axis a).stopReq = none → s.TakesForStop a e) :=
    fun e => by
      cases hreq : (s.axis a).stopReq with
      | none => simp [takes, x, hreq, State.TakesForStop]
      | some q => simp [takes, x, hreq]
  obtain ⟨e, w, hw, hjudge, hkeeps, htaken⟩ := judgeRecord_abort hi tag fun hreq =>
    htakes.imp fun e he => ((hiff e).mp he).2 hreq
  have hwkeeps : w.dev = s.dev ∧ w.interp = s.interp ∧ w.time = s.time ∧ w.fillQueue = s.fillQueue ∧ w.fetchers = s.fetchers ∧
      ∀ b, w.axis b = s.axis b := by
    obtain rfl | rfl := hw <;> exact ⟨rfl, rfl, rfl, rfl, rfl, fun _ => rfl⟩
  obtain ⟨hwdev, hwinterp, hwtime, hwqueue, hwfetch, hwaxis⟩ := hwkeeps
  have hdistinct : e ≠ g.entry := by
    cases hreq : (s.axis a).stopReq with
    | none => exact fun heq => hfree (heq ▸ (htaken hreq).free)
    | some q => rw [hkeeps q hreq]; exact (hpending q hreq).symm
  -- the request and the still axis
  generalize hq : ({ kind := .abort, tag := tag, entry := e, superseded := supersededTag (w.axis a) } : StopReq) = q
  have hentry : q.entry = e := by rw [← hq]
  have hstill : (w.modAxis a AxisBlock.still).axis a = (s.axis a).still := by rw [State.modAxis_axis_same, hwaxis]
  have hexec : exec (.abortAxis a tag) s = .next (offIfAtRest (restCore a q (w.modAxis a AxisBlock.still))) := by
    refine (exec_instr tag (.abortAxis a) s).trans (congrArg _ ?_)
    have hrest := restCore_rest a q (w.modAxis a AxisBlock.still)
    rw [deliverCommand_of_takes (takesControl_of hdev hi) rfl, hjudge, acceptAbort_moving (by rw [hwaxis]; exact hst), hq,
      restInstant_of_not_waitSync (.inr (by rw [hstill]; exact hheld)), settle_of_waiting]
    exact hrest.interp.trans (hwinterp.trans hi)
  have hreports := restCore_reports (s := w.modAxis a AxisBlock.still) (by rw [State.modAxis_dev, hwdev]; exact hfail) a q
  have hcongr : restReports (w.modAxis a AxisBlock.still) a q = restReports s a q := by
    refine restReports_congr (s := s) (u := w.modAxis a AxisBlock.still) hwtime ?_ ?_ ?_ ?_ ?_ ?_ q
    case refine_6 =>
      rw [State.modAxis_fetcher, State.fetcher, hwfetch]
      rfl
    all_goals rw [hstill]; rfl
  rw [hcongr, restReports_of_active hactive hheld, hentry, Segment.words_of_move hbody] at hreports
  have hself := restCore_axis a q (w.modAxis a AxisBlock.still) a
  obtain ⟨lr, hrested⟩ := (s.axis a).still.rested_eq
  rw [if_pos rfl, hstill, hrested] at hself
  have hother : ∀ b, b ≠ a → (restCore a q (w.modAxis a AxisBlock.still)).axis b = s.axis b := fun b hb => by
    rw [restCore_axis, if_neg hb, State.modAxis_axis_ne _ _ hb, hwaxis]
  have hrest := restCore_rest a q (w.modAxis a AxisBlock.still)
  have hfetch := restCore_fetcher a q (w.modAxis a AxisBlock.still)
  have hwfetcher : w.fetcher (axisRing a) = s.fetcher (axisRing a) := by rw [State.fetcher, hwfetch]; rfl
  rw [State.modAxis_fetcher, hwfetcher] at hfetch
  generalize restCore a q (w.modAxis a AxisBlock.still) = u at hexec hreports hself hother hrest hfetch
  have hudev : u.dev = s.dev := hrest.dev.trans hwdev
  have hqueue : u.fillQueue = s.fillQueue ++ [g.entry, e] := by
    rw [hreports.queue]
    exact congrArg (· ++ [g.entry, e]) hwqueue
  have hrequest : restReport s a q = ctlReport s (some a) tag 0x15 .ok x.staging.length (s.fetcher (axisRing a)).tail
      (((x.staging.map AxisRecord.tag).getLast?).getD 0) superseded := by
    have hsup : supersededTag (w.axis a) = superseded := by
      rw [hwaxis, supersededTag]
      cases hreq : (s.axis a).stopReq <;> simp [superseded, x, hreq]
    rw [restReport_eq, ← hq, ← hsup]
    rfl
  have hkept : ((offIfAtRest u).axis a).rate = 0 ∧ ((offIfAtRest u).axis a).frac = 0 ∧ ((offIfAtRest u).axis a).periodSteps = 0 ∧
      ((offIfAtRest u).axis a).schedule = [] ∧ ((offIfAtRest u).axis a).pulse = x.pulse ∧ ((offIfAtRest u).axis a).staging = [] ∧
      ((offIfAtRest u).axis a).active = none ∧ ((offIfAtRest u).axis a).stopReq = none ∧
      ((offIfAtRest u).axis a).cmdPos = x.cmdPos ∧ ((offIfAtRest u).axis a).encPos = x.encPos ∧
      ((offIfAtRest u).axis a).acc = x.acc := by
    obtain h | h := offIfAtRest_axis_cases u a
    · rw [h, hself]
      exact ⟨rfl, rfl, rfl, rfl, rfl, rfl, rfl, rfl, rfl, rfl, rfl⟩
    · rw [h, AxisBlock.toOff_of_ne (by rw [hself]; exact AxisState.noConfusion), hself]
      exact ⟨rfl, rfl, rfl, rfl, rfl, rfl, rfl, rfl, rfl, rfl, rfl⟩
  obtain ⟨hrate, hfrac, hperiod, hschedule, hpulse, hstaging, hnone, hnoreq, hcmd, henc, hacc⟩ := hkept
  refine ⟨e, _, (hiff e).mpr ⟨hkeeps, htaken⟩, hexec, (offIfAtRest_fillQueue u).trans hqueue, ?_, ?_, ?_, hrate, hfrac, hperiod, hschedule,
    hpulse, hstaging, hnone, hnoreq, hcmd, henc, hacc, fun hstays => ?_, fun hquiesce halone => ?_⟩
  · rw [offIfAtRest_entry, hreports.entry_of_split (l := []) (k := [_]) (by simpa using hdistinct), ← hq, axisReport, AxisRecord.id_eq,
      AxisRecord.kind_move hbody]
    rfl
  · rw [offIfAtRest_entry, ← hrequest]
    exact hreports.entry_last (l := [_])
  · exact offIfAtRest_fetcher (P := fun f => f = (s.fetcher (axisRing a)).setHead) (fun f hf => by rw [hf, setHead_cancel]) _ hfetch
  · have hsame : offIfAtRest u = u := by
      obtain honline | hnotalone := hstays
      · refine offIfAtRest_of_dev ?_
        rw [hudev, honline]
        decide
      · exact offIfAtRest_of_not_alone hnotalone hother
    rw [hsame]
    exact ⟨by rw [hself], hother⟩
  · exact allWentOff_of_idle (.inl hquiesce) hudev halone hother (by rw [hself]) (by rw [hself]; exact ⟨rfl, rfl, rfl⟩)

end Sys2Proof.Machine
end

section
/-! PROOFS. O16: HALT begins the quiesce. -/

namespace Sys2Proof.Machine
open Sys2Proof

/-! ### One axis -/

/-- A waiting axis at the start of a quiesce: its record has retired (R21). -/
def AxisBlock.quiesced (x : AxisBlock) : AxisBlock :=
  if x.st.waiting = true then { x.retired.heldRetired with st := .idle } else x

/-- The reports of a waiting axis at the start of a quiesce. -/
def quiesceReports (s : State) (a : Axis) : List (Fin 24 × Report) :=
  if (s.axis a).st.waiting = true then activeReport s a .stopped none Segment.words ++ heldReport s a .stopped none else []

/-- The axis block in which the records of an axis have retired and which is at rest. -/
theorem AxisBlock.quiesced_eq {x : AxisBlock} (h : x.st.waiting = true) : ∃ lr,
    x.quiesced = { x with active := none, held := none, lastRetired := lr, st := .idle } := by
  obtain ⟨lr, hboth⟩ := x.bothRetired_eq
  exact ⟨lr, by rw [AxisBlock.quiesced, if_pos h, hboth]⟩

theorem AxisBlock.quiesced_of_not {x : AxisBlock} (h : x.st.waiting = false) : x.quiesced = x :=
  if_neg (by rw [h]; decide)

/-- An axis that waits on a group is in WAIT_SYNC. -/
theorem AxisBlock.waiting_of_waitsOn {x : AxisBlock} {g : GroupIx} (h : x.waitsOn = some g) : x.st.waiting = true := by
  rw [AxisBlock.waitsOn] at h
  split at h
  next hst => rw [hst]; rfl
  next => exact absurd h (Option.some_ne_none g).symm

section
variable {s : State} (hdev : s.dev = .quiescing)
include hdev

/-- In a quiesce a departure breaks its group and halts no one (R76). -/
theorem depart_quiescing (g? : Option GroupIx) (a : Axis) :
    depart g? a s = s ∨ ∃ g, g? = some g ∧ (s.group g).st = .gathering ∧ depart g? a s = s.modGroup g Group.broke := by
  cases g? with
  | none => exact .inl rfl
  | some g =>
    by_cases hgather : (s.group g).st = .gathering
    · exact .inr ⟨g, rfl, hgather, (if_pos hgather).trans (if_pos hdev)⟩
    · exact .inl (if_neg hgather)

theorem depart_quiescing_axis (g? : Option GroupIx) (a b : Axis) : (depart g? a s).axis b = s.axis b := by
  obtain h | ⟨g, -, -, h⟩ := depart_quiescing hdev g? a <;> rw [h]
  rfl

theorem depart_quiescing_fetchers (g? : Option GroupIx) (a : Axis) : (depart g? a s).fetchers = s.fetchers := by
  obtain h | ⟨g, -, -, h⟩ := depart_quiescing hdev g? a <;> rw [h]
  rfl

theorem depart_quiescing_reports (g? : Option GroupIx) (a : Axis) : Reports s (depart g? a s) [] := by
  obtain h | ⟨g, -, -, h⟩ := depart_quiescing hdev g? a <;> rw [h]
  · exact .refl s
  · exact .of_eq rfl rfl

theorem depart_quiescing_group (g? : Option GroupIx) (a : Axis) (k : GroupIx) :
    (depart g? a s).group k = if (s.group k).st = .gathering ∧ g? = some k then (s.group k).broke else s.group k := by
  cases g? with
  | none => exact (if_neg fun h => Option.some_ne_none k h.2.symm).symm
  | some g =>
    by_cases hgather : (s.group g).st = .gathering
    · have hbreak : depart (some g) a s = s.modGroup g Group.broke := (if_pos hgather).trans (if_pos hdev)
      rw [hbreak, State.modGroup_group]
      by_cases hk : k = g
      · subst hk
        rw [if_pos rfl, if_pos ⟨hgather, rfl⟩]
      · rw [if_neg hk, if_neg fun h => hk (Option.some.inj h.2).symm]
    · have hstays : depart (some g) a s = s := if_neg hgather
      rw [hstays, if_neg]
      rintro ⟨hk, hg⟩
      rw [Option.some.inj hg] at hgather
      exact hgather hk

theorem quiesceAxis_axis (a b : Axis) : (quiesceAxis a s).axis b = if b = a then (s.axis a).quiesced else s.axis b := by
  unfold quiesceAxis AxisBlock.quiesced
  by_cases hwaits : (s.axis a).st.waiting = true
  · have hrest := (retireCurrent_seq a .stopped none s).rest
    rw [if_pos hwaits, if_pos hwaits, depart_quiescing_axis (s := (retireCurrent a .stopped none s).modAxis a _) (hrest.dev.trans hdev),
      State.modAxis_axis, retireCurrent_axis, retireCurrent_axis]
    by_cases hb : b = a
    · rw [if_pos hb, if_pos hb, if_pos rfl]
    · rw [if_neg hb, if_neg hb, if_neg hb]
  · rw [if_neg hwaits, if_neg hwaits]
    exact ite_self_axis s a b

theorem quiesceAxis_fetchers (a : Axis) : (quiesceAxis a s).fetchers = s.fetchers := by
  unfold quiesceAxis
  split
  next =>
    have hrest := (retireCurrent_seq a .stopped none s).rest
    rw [depart_quiescing_fetchers (s := (retireCurrent a .stopped none s).modAxis a _) (hrest.dev.trans hdev)]
    exact retireCurrent_fetchers ..
  next => rfl

theorem quiesceAxis_reports (a : Axis) : Reports s (quiesceAxis a s) (quiesceReports s a) := by
  unfold quiesceAxis quiesceReports
  split
  next =>
    have hrest := (retireCurrent_seq a .stopped none s).rest
    have hretire := retireCurrent_reports (s := s) (by rw [hdev]; decide) a (st := .stopped) (by decide) none
    have hdepart := depart_quiescing_reports (s := (retireCurrent a .stopped none s).modAxis a fun x => { x with st := .idle })
      (hrest.dev.trans hdev) (s.axis a).waitsOn a
    have hidle := hretire.then (u := (retireCurrent a .stopped none s).modAxis a fun x => { x with st := .idle }) rfl rfl
    exact (hidle.trans hdepart).of_list (List.append_nil _)
  next => exact .refl s

theorem quiesceAxis_group (a : Axis) (k : GroupIx) : (quiesceAxis a s).group k =
    if (s.group k).st = .gathering ∧ (s.axis a).waitsOn = some k then (s.group k).broke else s.group k := by
  unfold quiesceAxis
  by_cases hwaits : (s.axis a).st.waiting = true
  · have hrest := (retireCurrent_seq a .stopped none s).rest
    rw [if_pos hwaits, depart_quiescing_group (s := (retireCurrent a .stopped none s).modAxis a _) (hrest.dev.trans hdev),
      State.modAxis_group, retireCurrent_group]
  · rw [if_neg hwaits, if_neg fun h => hwaits (AxisBlock.waiting_of_waitsOn h.2)]

end

theorem quiesceAxis_dev (a : Axis) (s : State) : (quiesceAxis a s).dev = s.dev := (quiesceAxis_seq a s).rest.dev

/-- The reports of an axis depend on its block and the time. -/
theorem quiesceReports_congr {s t : State} {b : Axis} (htime : t.time = s.time) (haxis : t.axis b = s.axis b) :
    quiesceReports t b = quiesceReports s b := by
  simp only [quiesceReports, activeReport, heldReport, axisReport, htime, haxis]

/-! ### The waiting axes, one after the other -/

theorem quiesceAxes_reports (l : List Axis) (hn : l.Nodup) {s : State} (hdev : s.dev = .quiescing) :
    Reports s (l.foldl (fun t b => quiesceAxis b t) s) (l.flatMap (quiesceReports s)) := by
  induction l generalizing s with
  | nil => exact .refl s
  | cons a l ih =>
    obtain ⟨ha, hl⟩ := List.nodup_cons.mp hn
    have hcongr : ∀ b ∈ l, quiesceReports (quiesceAxis a s) b = quiesceReports s b := fun b hb =>
      quiesceReports_congr (quiesceAxis_seq a s).rest.time
        (by rw [quiesceAxis_axis hdev, if_neg (ne_of_mem_of_not_mem hb ha)])
    have htail := ih hl (s := quiesceAxis a s) ((quiesceAxis_dev a s).trans hdev)
    rw [List.flatMap_congr hcongr] at htail
    exact (quiesceAxis_reports hdev a).trans htail

theorem quiesceAxes_fetchers (l : List Axis) {s : State} (hdev : s.dev = .quiescing) :
    (l.foldl (fun t b => quiesceAxis b t) s).fetchers = s.fetchers := by
  induction l generalizing s with
  | nil => rfl
  | cons a l ih => rw [List.foldl_cons, ih ((quiesceAxis_dev a s).trans hdev), quiesceAxis_fetchers hdev]

theorem quiesceAxes_group (l : List Axis) (hn : l.Nodup) {s : State} (hdev : s.dev = .quiescing) (k : GroupIx) :
    (l.foldl (fun t b => quiesceAxis b t) s).group k =
      if (s.group k).st = .gathering ∧ ∃ b ∈ l, (s.axis b).waitsOn = some k then (s.group k).broke else s.group k := by
  induction l generalizing s with
  | nil => exact (if_neg fun ⟨_, b, hb, _⟩ => List.not_mem_nil hb).symm
  | cons a l ih =>
    obtain ⟨ha, hl⟩ := List.nodup_cons.mp hn
    have hother : ∀ b ∈ l, (quiesceAxis a s).axis b = s.axis b := fun b hb => by
      rw [quiesceAxis_axis hdev, if_neg (ne_of_mem_of_not_mem hb ha)]
    have hexists : (∃ b ∈ l, ((quiesceAxis a s).axis b).waitsOn = some k) ↔ ∃ b ∈ l, (s.axis b).waitsOn = some k :=
      exists_congr fun b => and_congr_right fun hb => by rw [hother b hb]
    rw [List.foldl_cons, ih hl ((quiesceAxis_dev a s).trans hdev)]
    refine (if_congr (and_congr_right fun _ => hexists) rfl rfl).trans ?_
    rw [quiesceAxis_group hdev]
    by_cases hfirst : (s.group k).st = .gathering ∧ (s.axis a).waitsOn = some k
    · rw [if_pos hfirst, if_neg fun h => GroupState.noConfusion h.1, if_pos ⟨hfirst.1, a, List.mem_cons_self, hfirst.2⟩]
    · rw [if_neg hfirst]
      refine if_congr (and_congr_right fun hgather => ?_) rfl rfl
      have hnot : (s.axis a).waitsOn ≠ some k := fun h => hfirst ⟨hgather, h⟩
      simp only [List.mem_cons, exists_eq_or_imp, hnot, false_or]

/-! ### The quiesce as a whole -/

/-- A moving axis at the start of a quiesce ramps down (R21). -/
def AxisBlock.rampsForQuiesce (x : AxisBlock) : AxisBlock := if x.st = .run then x.enterRamp x.cfg.stopDecel else x

/-- The state in which a quiesce begins. -/
def State.quiesceStart (s : State) : State := { s with dev := .quiescing }.mapAxes AxisBlock.rampsForQuiesce

theorem State.quiesceStart_axis (s : State) (a : Axis) : s.quiesceStart.axis a = (s.axis a).rampsForQuiesce := State.mapAxes_axis ..

theorem AxisBlock.rampsForQuiesce_of_ne {x : AxisBlock} (h : x.st ≠ .run) : x.rampsForQuiesce = x := if_neg h

theorem AxisBlock.rampsForQuiesce_waiting (x : AxisBlock) : x.rampsForQuiesce.st.waiting = x.st.waiting := by
  by_cases h : x.st = .run
  · rw [AxisBlock.rampsForQuiesce, if_pos h, h]
    rfl
  · rw [AxisBlock.rampsForQuiesce_of_ne h]

/-- The axes that retire a record do so in some order. -/
theorem haltNow_eq {s : State} (hdev : s.dev = .online) : ∃ (order : List Axis) (n : Nat),
    order.Perm (allAxes.filter fun a => (s.axis a).st.waiting) ∧
      haltNow s = settle (order.foldl (fun t b => quiesceAxis b t) { s.quiesceStart with freeCount := n }) := by
  have hfilter : (allAxes.filter fun a => (s.quiesceStart.axis a).st.waiting) = allAxes.filter fun a => (s.axis a).st.waiting :=
    List.filter_congr fun a _ => by rw [State.quiesceStart_axis, AxisBlock.rampsForQuiesce_waiting]
  exact ⟨_, _, hfilter ▸ arrange_perm s.freeCount _ _ le_rfl, if_pos hdev⟩

/-- A list of reports whose entries are different leaves each of them in its entry. -/
theorem Reports.entry_of_mem {s t : State} {l : List (Fin 24 × Report)} (h : Reports s t l) (hn : (l.map Prod.fst).Nodup)
    {e : Fin 24} {r : Report} (hmem : (e, r) ∈ l) : t.entry e = .filled r := by
  obtain ⟨k, m, rfl⟩ := List.append_of_mem hmem
  refine h.entry_of_split fun p hp heq => ?_
  rw [List.map_append, List.map_cons] at hn
  have hnot := (List.nodup_cons.mp (List.nodup_append.mp hn).2.1).1
  exact hnot (List.mem_map.mpr ⟨p, hp, heq⟩)

/-- The report of the active record of a waiting axis at the start of a quiesce. -/
def stoppedReport (s : State) (a : Axis) (id : RecId) (w : Word × Word) : Report := axisReport s a .segment .stopped none id 0 0 w.1 w.2

theorem mem_quiesceReports {s : State} {a : Axis} {p : Fin 24 × Report} : p ∈ quiesceReports s a ↔ (s.axis a).st.waiting = true ∧
    ((∃ g, (s.axis a).active = some g ∧ p = (g.entry, stoppedReport s a g.record.id g.words)) ∨
      ∃ h, (s.axis a).held = some h ∧ p = (h.entry, stoppedReport s a h.record.id (0, 0))) := by
  unfold quiesceReports activeReport heldReport
  split
  next hw =>
    rw [List.mem_append]
    cases (s.axis a).active <;> cases (s.axis a).held <;> simp [hw, stoppedReport]
  next hw => simp [hw]

/-- An axis waits in WAIT_SYNC with a record of a group. -/
def State.WaitsFor (s : State) (k : GroupIx) : Prop :=
  ∃ b h, (s.axis b).st = .waitSync ∧ (s.axis b).held = some h ∧ h.group = k

/-- What a HALT in ONLINE leaves before axes at rest go to OFF: `order` is the order in which the waiting axes retire. -/
structure QuiesceBegins (s u : State) (order : List Axis) : Prop where
  once : order.Nodup
  waiting : ∀ b, b ∈ order ↔ (s.axis b).st.waiting = true
  dev : u.dev = .quiescing
  writer : u.writer = s.writer
  port : u.port = s.port
  time : u.time = s.time
  axis : ∀ b, u.axis b = (s.axis b).rampsForQuiesce.quiesced
  fetchers : u.fetchers = s.fetchers
  broken : ∀ k, (s.group k).st = .gathering → s.WaitsFor k → u.group k = (s.group k).broke
  groups : ∀ k, ((s.group k).st ≠ .gathering ∨ ¬ s.WaitsFor k) → u.group k = s.group k
  reports : Reports s u (order.flatMap (quiesceReports s))

theorem AxisBlock.waitsOn_iff (x : AxisBlock) (k : GroupIx) :
    x.waitsOn = some k ↔ x.st = .waitSync ∧ ∃ h, x.held = some h ∧ h.group = k := by
  rw [AxisBlock.waitsOn]
  split
  next hst => simp [hst]
  next hst => simp [hst]

theorem haltNow_quiesces {s : State} (h : s.Ready) : ∃ u order, haltNow s = offIfAtRest u ∧ QuiesceBegins s u order := by
  obtain ⟨order, n, hperm, hhalt⟩ := haltNow_eq h.1
  generalize hstart : ({ s.quiesceStart with freeCount := n } : State) = s0 at hhalt
  have hnodup : order.Nodup := hperm.nodup_iff.mpr (List.Nodup.filter _ (by decide))
  have hmem : ∀ b, b ∈ order ↔ (s.axis b).st.waiting = true := fun b => by
    have hall : ∀ a : Axis, a ∈ allAxes := by decide
    simp [hperm.mem_iff, hall]
  have hdev : s0.dev = .quiescing := by rw [← hstart]; rfl
  have haxis0 : ∀ b, s0.axis b = (s.axis b).rampsForQuiesce := fun b => by
    rw [← hstart]
    exact s.quiesceStart_axis b
  have hrest : SameRest s0 (order.foldl (fun t b => quiesceAxis b t) s0) := (Seq.foldl quiesceAxis_seq order s0).rest
  have haxis := (foldl_axis (I := fun t => t.dev = .quiescing) (f := quiesceAxis) (F := fun _ => AxisBlock.quiesced)
    (fun a t ht => (quiesceAxis_dev a t).trans ht) (fun a t b ht => quiesceAxis_axis ht a b) order hnodup s0 hdev).2
  have hgroup := quiesceAxes_group order hnodup hdev
  have hreports := quiesceAxes_reports order hnodup hdev
  have hfetchers := quiesceAxes_fetchers order hdev
  have hcongr : ∀ b ∈ order, quiesceReports s0 b = quiesceReports s b := fun b hb => by
    refine quiesceReports_congr (by rw [← hstart]; rfl) ?_
    rw [haxis0, AxisBlock.rampsForQuiesce_of_ne]
    intro hrun
    have hwaits := (hmem b).mp hb
    rw [hrun] at hwaits
    exact absurd hwaits (by decide)
  rw [List.flatMap_congr hcongr] at hreports
  have hwaitsFor : ∀ k, (∃ b ∈ order, (s0.axis b).waitsOn = some k) ↔ s.WaitsFor k := fun k => by
    have hone : ∀ b, (s0.axis b).waitsOn = (s.axis b).waitsOn := fun b => by
      rw [haxis0]
      by_cases hrun : (s.axis b).st = .run
      · have hbefore : (s.axis b).waitsOn = none := AxisBlock.waitsOn_of_not_waitSync (.inl (by rw [hrun]; decide))
        have hafter : (s.axis b).rampsForQuiesce.waitsOn = none := by
          refine AxisBlock.waitsOn_of_not_waitSync (.inl ?_)
          rw [AxisBlock.rampsForQuiesce, if_pos hrun]
          exact AxisState.noConfusion
        rw [hbefore, hafter]
      · rw [AxisBlock.rampsForQuiesce_of_ne hrun]
    constructor
    · rintro ⟨b, -, hb⟩
      obtain ⟨hst, k', hheld, hk⟩ := (AxisBlock.waitsOn_iff _ k).mp (hone b ▸ hb)
      exact ⟨b, k', hst, hheld, hk⟩
    · rintro ⟨b, k', hst, hheld, hk⟩
      exact ⟨b, (hmem b).mpr (by rw [hst]; rfl), (hone b).trans ((AxisBlock.waitsOn_iff _ k).mpr ⟨hst, k', hheld, hk⟩)⟩
  have hgroup0 : ∀ k, s0.group k = s.group k := fun k => by rw [← hstart]; rfl
  generalize order.foldl (fun t b => quiesceAxis b t) s0 = u at hhalt hrest haxis hgroup hreports hfetchers
  refine ⟨u, order, ?_, hnodup, hmem, hrest.dev.trans hdev, ?_, ?_, ?_, fun b => ?_, ?_, fun k hgather hwaits => ?_, fun k hno => ?_, ?_⟩
  · rw [hhalt, settle_of_waiting]
    rw [hrest.interp, ← hstart]
    exact h.2
  · rw [hrest.writer, ← hstart]; rfl
  · rw [hrest.port, ← hstart]; rfl
  · rw [hrest.time, ← hstart]; rfl
  · rw [haxis, haxis0]
    by_cases hb : b ∈ order
    · rw [if_pos hb]
    · rw [if_neg hb, AxisBlock.quiesced_of_not]
      rw [AxisBlock.rampsForQuiesce_waiting, ← Bool.not_eq_true]
      exact mt (hmem b).mpr hb
  · rw [hfetchers, ← hstart]; rfl
  · rw [hgroup, hgroup0, if_pos ⟨hgather, (hwaitsFor k).mpr hwaits⟩]
  · rw [hgroup, hgroup0, if_neg]
    rintro ⟨hgather, hwaits⟩
    exact hno.elim (fun hne => hne hgather) fun hne => hne ((hwaitsFor k).mp hwaits)
  · exact hreports.after (by rw [← hstart]; rfl) (by rw [← hstart]; rfl)

/-! ### The entries of the records that retire -/

/-- With the completion buffer kept, the entries of the waiting axes' records are different (R6). -/
theorem quiesceReports_nodup {s : State} (hdev : s.dev ≠ .failed) (hkept : s.BufferKept) {order : List Axis} (hn : order.Nodup) :
    ((order.flatMap (quiesceReports s)).map Prod.fst).Nodup := by
  have hentry : ∀ {a : Axis} {p : Fin 24 × Report}, p ∈ quiesceReports s a →
      s.entry p.1 = .reserved (.axisRecord a) ∨ s.entry p.1 = .reserved (.heldSync a) := by
    intro a p hp
    obtain ⟨-, ⟨g, hg, rfl⟩ | ⟨k, hk, rfl⟩⟩ := mem_quiesceReports.mp hp
    · exact .inl (hkept.active hdev a g hg)
    · exact .inr (hkept.held hdev a k hk)
  rw [List.map_flatMap, List.nodup_flatMap]
  refine ⟨fun a _ => ?_, hn.imp fun {a b} hne => ?_⟩
  · unfold quiesceReports activeReport heldReport
    split
    next =>
      cases hg : (s.axis a).active with
      | none => cases (s.axis a).held <;> simp
      | some g =>
        cases hk : (s.axis a).held with
        | none => simp
        | some k =>
          have hne : g.entry ≠ k.entry := fun heq => by
            have hfirst := hkept.active hdev a g hg
            rw [heq, hkept.held hdev a k hk] at hfirst
            exact absurd hfirst (by simp)
          simp [hne]
    next => exact List.nodup_nil
  · refine List.disjoint_left.mpr fun e ha hb => ?_
    obtain ⟨p, hp, rfl⟩ := List.mem_map.mp ha
    obtain ⟨q, hq, heq⟩ := List.mem_map.mp hb
    have hpe := hentry hp
    have hqe := hentry hq
    rw [heq] at hqe
    have hab : a = b := by
      obtain hp | hp := hpe <;> obtain hq | hq := hqe <;> rw [hp] at hq
      · simpa using hq
      · simp at hq
      · simp at hq
      · simpa using hq
    exact hne hab

theorem Segment.words_of_dwell {g : Segment} {n : Nat} {k : Option GroupIx} (h : g.record.body = .dwell n k) :
    g.words = (BitVec.ofNat 32 g.expiries, 0) := by
  simp only [Segment.words, h]

theorem Segment.words_of_wait {g : Segment} {w : Wait} (h : g.record.body = .wait w) : g.words = (0, 0) := by
  simp only [Segment.words, h]

theorem AxisState.waiting_iff (st : AxisState) : st.waiting = true ↔ st = .dwell ∨ st = .waitEvent ∨ st = .waitSync := by
  cases st <;> simp [AxisState.waiting]

/-- What the start of a quiesce keeps of an axis, and the state it leaves it in. -/
theorem AxisBlock.quiesceStart_keeps (x : AxisBlock) :
    x.rampsForQuiesce.quiesced.cmdPos = x.cmdPos ∧ x.rampsForQuiesce.quiesced.encPos = x.encPos ∧
      x.rampsForQuiesce.quiesced.cfg = x.cfg ∧ (x.rampsForQuiesce.quiesced.st = .halted → x.st = .halted) ∧
      (x.rampsForQuiesce.quiesced.st = .off ↔ x.st = .off) ∧ x.rampsForQuiesce.quiesced.st.moving = x.st.moving := by
  by_cases hrun : x.st = .run
  · rw [AxisBlock.rampsForQuiesce, if_pos hrun, AxisBlock.quiesced_of_not rfl, hrun]
    exact ⟨rfl, rfl, rfl, AxisState.noConfusion, ⟨AxisState.noConfusion, AxisState.noConfusion⟩, rfl⟩
  · rw [AxisBlock.rampsForQuiesce_of_ne hrun]
    cases hwaits : x.st.waiting with
    | false => rw [AxisBlock.quiesced_of_not hwaits]; exact ⟨rfl, rfl, rfl, id, Iff.rfl, rfl⟩
    | true =>
      obtain ⟨lr, hq⟩ := AxisBlock.quiesced_eq hwaits
      rw [hq]
      obtain hst | hst | hst := (AxisState.waiting_iff _).mp hwaits <;> rw [hst] <;>
        exact ⟨rfl, rfl, rfl, AxisState.noConfusion, ⟨AxisState.noConfusion, AxisState.noConfusion⟩, rfl⟩

/-- Settles O16. -/
theorem haltBeginsTheQuiesce : Obligations.HaltBeginsTheQuiesce := by
  intro s
  refine ⟨fun hdev => congrArg _ (if_neg hdev), fun h => ?_⟩
  obtain ⟨u, order, hhalt, hbegins⟩ := haltNow_quiesces h
  have hfail : s.dev ≠ .failed := Ready.not_failed h
  have hrest := (offIfAtRest_seq u).rest
  have hmoves : ∀ b, (u.axis b).st.moving = (s.axis b).st.moving := fun b => by
    rw [hbegins.axis]
    exact (AxisBlock.quiesceStart_keeps _).2.2.2.2.2
  refine ⟨offIfAtRest u, congrArg _ hhalt, hrest.dev.trans hbegins.dev, hrest.writer.trans hbegins.writer, hrest.port.trans hbegins.port,
    hrest.time.trans hbegins.time, fun k hgather hwaits => (offIfAtRest_group u k).trans (hbegins.broken k hgather hwaits),
    fun k hno => (offIfAtRest_group u k).trans (hbegins.groups k (hno.imp_right ?_)), fun b hb => ?_, ?buffer, ?moving, ?still⟩
  · rintro hnone ⟨b, k', hst, hheld, hk⟩
    exact hnone b k' hst hheld hk
  · obtain hcase | hcase := offIfAtRest_axis_cases u b
    · rw [hcase, hbegins.axis] at hb
      obtain ⟨-, -, -, hhalted, -⟩ := (s.axis b).quiesceStart_keeps
      exact hhalted hb
    · rw [hcase] at hb
      exact absurd ((AxisBlock.toOff_st _).symm.trans hb) (by decide)
  case buffer =>
    intro hkept stopped waits
    have hnodup := quiesceReports_nodup hfail hkept hbegins.once
    have hreports := hbegins.reports
    have hmem : ∀ p, p ∈ order.flatMap (quiesceReports s) ↔ ∃ a, p ∈ quiesceReports s a := fun p => by
      rw [List.mem_flatMap]
      exact ⟨fun ⟨a, _, hp⟩ => ⟨a, hp⟩, fun ⟨a, hp⟩ => ⟨a, (hbegins.waiting a).mpr (mem_quiesceReports.mp hp).1, hp⟩⟩
    have hheldWaits : ∀ {a k}, (s.axis a).held = some k → (s.axis a).st.waiting = true := fun {a k} hk => by
      rw [hkept.waitSync a (by rw [hk]; exact Option.some_ne_none k)]
      rfl
    refine ⟨(order.flatMap (quiesceReports s)).map Prod.fst, (offIfAtRest_fillQueue u).trans hreports.queue, hnodup, fun e => ?_,
      fun e he => ?_, fun a g hwaits hg => ⟨?_, fun n k => Segment.words_of_dwell, fun w => Segment.words_of_wait⟩, fun a k hk => ?_⟩
    · rw [List.mem_map]
      constructor
      · rintro ⟨p, hp, rfl⟩
        obtain ⟨a, hp⟩ := (hmem p).mp hp
        obtain ⟨hwaits, ⟨g, hg, rfl⟩ | ⟨k, hk, rfl⟩⟩ := mem_quiesceReports.mp hp
        · exact .inl ⟨a, g, (AxisState.waiting_iff _).mp hwaits, hg, rfl⟩
        · exact .inr ⟨a, k, hk, rfl⟩
      · rintro (⟨a, g, hwaits, hg, rfl⟩ | ⟨a, k, hk, rfl⟩)
        · exact ⟨_, (hmem _).mpr ⟨a, mem_quiesceReports.mpr ⟨(AxisState.waiting_iff _).mpr hwaits, .inl ⟨g, hg, rfl⟩⟩⟩, rfl⟩
        · exact ⟨_, (hmem _).mpr ⟨a, mem_quiesceReports.mpr ⟨hheldWaits hk, .inr ⟨k, hk, rfl⟩⟩⟩, rfl⟩
    · rw [offIfAtRest_entry]
      exact hreports.entry_of_not_mem fun p hp heq => he (List.mem_map.mpr ⟨p, hp, heq⟩)
    · rw [offIfAtRest_entry]
      exact hreports.entry_of_mem hnodup
        ((hmem _).mpr ⟨a, mem_quiesceReports.mpr ⟨(AxisState.waiting_iff _).mpr hwaits, .inl ⟨g, hg, rfl⟩⟩⟩)
    · rw [offIfAtRest_entry]
      exact hreports.entry_of_mem hnodup ((hmem _).mpr ⟨a, mem_quiesceReports.mpr ⟨hheldWaits hk, .inr ⟨k, hk, rfl⟩⟩⟩)
  case moving =>
    rintro ⟨b, hb⟩
    rw [offIfAtRest_of_moving (b := b) ((hmoves b).trans hb)]
    refine ⟨hbegins.fetchers, fun a => ⟨fun hrun => ?_, fun hst => ?_, fun hwaits => ?_⟩⟩
    · rw [hbegins.axis, AxisBlock.rampsForQuiesce, if_pos hrun, AxisBlock.quiesced_of_not rfl]
      rfl
    · have hnot : (s.axis a).st ≠ .run ∧ (s.axis a).st.waiting = false := by
        obtain hst | hst | hst | hst := hst <;> rw [hst] <;> decide
      rw [hbegins.axis, AxisBlock.rampsForQuiesce_of_ne hnot.1, AxisBlock.quiesced_of_not hnot.2]
    · have hwaits' := (AxisState.waiting_iff _).mpr hwaits
      have hnot : (s.axis a).st ≠ .run := fun hrun => by
        rw [hrun] at hwaits'
        exact absurd hwaits' (by decide)
      obtain ⟨lr, hq⟩ := AxisBlock.quiesced_eq hwaits'
      rw [hbegins.axis, AxisBlock.rampsForQuiesce_of_ne hnot, hq]
      exact ⟨rfl, rfl, rfl, rfl, rfl⟩
  case still =>
    intro hstill a
    obtain ⟨hcmd, henc, hcfg, -, hoff, -⟩ := (s.axis a).quiesceStart_keeps
    obtain ⟨hdisarmed, hcmd', henc', hcfg'⟩ := (u.axis a).toOff_disarm_keeps
    rw [offIfAtRest_axis_of_rest (.inl hbegins.dev) fun b => (hmoves b).trans (hstill b)]
    rw [← hbegins.axis] at hcmd henc hcfg hoff
    refine ⟨AxisBlock.toOff_st _, hdisarmed, hcmd'.trans hcmd, henc'.trans henc, hcfg'.trans hcfg, fun hne => ?_⟩
    rw [AxisBlock.toOff_of_ne (mt hoff.mp hne)]
    exact ⟨rfl, rfl, rfl, rfl, rfl⟩

end Sys2Proof.Machine
end

section
/-! PROOFS. Events: the latches they reach, the WAIT they complete and the capture they give (O47, O48, O49). -/

namespace Sys2Proof.Machine
open Sys2Proof

/-! ### The latches an event reaches -/

/-- The sources in turn take an event on the latches of a block. -/
def AxisBlock.takes (now : Word) (srcs : List Source) (x : AxisBlock) : AxisBlock :=
  srcs.foldl (fun y src => y.setLatch src ((y.latch src).take now)) x

theorem AxisBlock.takes_keeps (now : Word) (srcs : List Source) (x : AxisBlock) :
    x.takes now srcs = { x with latches := (x.takes now srcs).latches } := by
  induction srcs generalizing x with
  | nil => rfl
  | cons src srcs ih => exact ih (x.setLatch src ((x.latch src).take now))

/-- Each source named takes the event once, and no other latch changes (R95). -/
theorem AxisBlock.latch_takes (now : Word) {srcs : List Source} (hnodup : srcs.Nodup) (x : AxisBlock) (src : Source) :
    (x.takes now srcs).latch src = if src ∈ srcs then (x.latch src).take now else x.latch src := by
  induction srcs generalizing x with
  | nil => rfl
  | cons first srcs ih =>
    obtain ⟨hfirst, hrest⟩ := List.nodup_cons.mp hnodup
    refine (ih hrest (x.setLatch first ((x.latch first).take now))).trans ?_
    rw [AxisBlock.latch_setLatch]
    by_cases heq : src = first
    · rw [if_neg (heq ▸ hfirst), if_pos heq, if_pos (List.mem_cons.mpr (.inl heq)), heq]
    · simp only [if_false, List.mem_cons, heq, false_or]

/-- A block after an event of a line that reaches its latches. -/
def AxisBlock.reached (l : EventLine) (a : Axis) (now : Word) (x : AxisBlock) : AxisBlock := x.takes now (fedSources l a x.cfg)

theorem fedSources_nodup (l : EventLine) (a : Axis) (c : AxisConfig) : (fedSources l a c).Nodup := by
  cases l <;> simp only [fedSources]
  case encI => split <;> simp
  case home => split <;> simp
  case trg => split <;> split <;> simp

theorem reachLatches_eq (l : EventLine) (a : Axis) (s : State) :
    reachLatches l a s = s.modAxis a (AxisBlock.reached l a s.time) := by
  have hall : ∀ (srcs : List Source) (t : State), srcs.foldl (fun t src => latchEvent (a, src) t) t
      = t.modAxis a (AxisBlock.takes t.time srcs) := fun srcs => by
    induction srcs with
    | nil => exact fun t => (State.modAxis_id t a).symm
    | cons src srcs ih => exact fun t => (ih _).trans (State.modAxis_modAxis ..)
  rw [reachLatches, hall]
  rfl

/-- The state after an event has reached the latches it feeds. -/
def State.reached (l : EventLine) (s : State) : State := allAxes.foldl (fun t a => reachLatches l a t) s

theorem State.reached_axis (l : EventLine) (s : State) (b : Axis) : (s.reached l).axis b = (s.axis b).reached l b s.time := by
  have hfold := (foldl_axis (I := fun t => t.time = s.time) (f := reachLatches l) (F := fun a => AxisBlock.reached l a s.time)
    (fun a t ht => by rw [reachLatches_eq]; exact ht)
    (fun a t b ht => by rw [reachLatches_eq, State.modAxis_axis, ht]) allAxes (by decide) s rfl).2 b
  exact hfold.trans (if_pos (by fin_cases b <;> decide))

theorem State.reached_eq (l : EventLine) (s : State) : 
    s.reached l = { s with axes := (s.reached l).axes, freeCount := (s.reached l).freeCount } := by
  simp only [State.reached, allAxes, List.foldl, reachLatches_eq]
  rfl

/-! ### What takes an event -/

theorem flatMap_of_unique {α β : Type} {l : List α} (hnodup : l.Nodup) {a : α} (ha : a ∈ l) {f : α → List β}
    (h : ∀ b, b ≠ a → f b = []) : l.flatMap f = f a := by
  obtain ⟨before, after, rfl⟩ := List.append_of_mem ha
  obtain ⟨-, hafter, hdisjoint⟩ := List.nodup_append.mp hnodup
  have hbefore : before.flatMap f = [] := List.flatMap_eq_nil_iff.mpr fun b hb =>
    h b (hdisjoint b hb a List.mem_cons_self)
  have hrest : after.flatMap f = [] := List.flatMap_eq_nil_iff.mpr fun b hb =>
    h b (ne_of_mem_of_not_mem hb (List.nodup_cons.mp hafter).1)
  rw [List.flatMap_append, List.flatMap_cons, hbefore, hrest, List.nil_append, List.append_nil]

theorem waitTaker_of_ne {s : State} {a : Axis} (h : (s.axis a).st ≠ .waitEvent) (l : EventLine) : waitTaker l s a = [] := by
  have hnone : (s.axis a).waitingOn = none := by
    unfold AxisBlock.waitingOn
    split
    next hst _ => exact absurd hst h
    next => rfl
  rw [waitTaker, hnone]

theorem waitTaker_of_waits {s : State} {a : Axis} {w : Wait} (hdev : s.dev ≠ .failed) (h : (s.axis a).waitingOn = some w)
    {l : EventLine} (hfed : w.src ∈ fedSources l a (s.axis a).cfg) : waitTaker l s a = [.wait a w] := by
  simp only [waitTaker, h]
  rw [if_pos]
  rw [List.contains_iff_mem.mpr hfed]
  simpa using hdev

theorem captureTaker_of_waiting {s : State} (hi : s.interp = .waiting) (l : EventLine) (a : Axis) :
    captureTaker l s a = if (s.axis a).armedFor l a then [.capture a] else [] := by
  simp only [captureTaker, hi, Interp.arms, Bool.or_false]

theorem AxisBlock.armedFor_of_disarmed {x : AxisBlock} (h : x.arm.armed = false) (l : EventLine) (a : Axis) :
    x.armedFor l a = false := by
  simp [AxisBlock.armedFor, CaptureArm.armedOn, h]

/-- What an event brings the axes beyond their latches. -/
def State.takers (l : EventLine) (s : State) : List EventTaker :=
  allAxes.flatMap fun a => waitTaker l s a ++ captureTaker l s a

theorem exec_event {s : State} (h : s.interp = .waiting) (l : EventLine) : exec (.event l) s
    = .next (settle (inSomeOrder (s.takers l) (runTaker l) ((setLevel (eventLine l) (eventLevel s l) s).reached l))) := by
  have hact := eventAct_of_waiting l (s := setLevel (eventLine l) (eventLevel s l) s) h
  refine Eq.trans (b := .next (settle (eventAct l (setLevel (eventLine l) (eventLevel s l) s)))) ?_ (congrArg _ (congrArg settle hact))
  exact congrArg (fun u => Host.Outcome.next (settle u)) (if_pos rfl)

/-! ### O47: the latches -/

/-- Settles O47. -/
theorem eventSetsTheLatchesItFeeds : Obligations.EventSetsTheLatchesItFeeds := by
  intro s line feeds hq hf hi hnone
  have htakers : s.takers line = [] := List.flatMap_eq_nil_iff.mpr fun a _ => by
    rw [waitTaker_of_ne (hnone a).1, captureTaker_of_waiting hi, AxisBlock.armedFor_of_disarmed (hnone a).2]
    rfl
  have hexec := exec_event hi line
  rw [htakers, inSomeOrder_nil, settle_of_quiet] at hexec
  rotate_left
  · rw [State.reached_eq]; exact hq
  · rw [State.reached_eq]; exact hf
  · rw [State.reached_eq]; exact hi
  have haxis : ∀ a, ((setLevel (eventLine line) (eventLevel s line) s).reached line).axis a = (s.axis a).reached line a s.time :=
    State.reached_axis line _
  refine ⟨_, hexec, fun a => ?_, fun a src => ?_, State.reached_eq line (setLevel (eventLine line) (eventLevel s line) s)⟩
  · rw [haxis]
    exact AxisBlock.takes_keeps ..
  · have hfeeds : feeds a src = true ↔ src ∈ fedSources line a (s.axis a).cfg := by
      cases src <;> cases line <;> simp [feeds, fedSources, eq_comm (a := a)]
    rw [haxis, AxisBlock.reached, AxisBlock.latch_takes _ (fedSources_nodup ..)]
    simp only [hfeeds]
    rfl

/-! ### O48: the WAIT -/

theorem fedSources_trigger {m : Fin 4} {a : Axis} {c : AxisConfig} (hindex : c.indexSrc = .own) (hhome : c.homeSrc = .own) :
    fedSources (.trg m) a c = [.trg m] := by
  simp [fedSources, hindex, hhome]

theorem acceptInEvent_of_waiting {s : State} (h : s.interp = .waiting) : acceptInEvent s = s := by
  have hreads : s.interp.readsStatus = false := by rw [h]; rfl
  rw [acceptInEvent, hreads, acceptAtRelease_of_waiting none h, ite_self]

/-- The WAIT an axis is in, named by its segment. -/
theorem AxisBlock.waitingOn_of {x : AxisBlock} {g : Segment} {w : Wait} (hst : x.st = .waitEvent) (hactive : x.active = some g)
    (hbody : g.record.body = .wait w) : x.waitingOn = some w := by
  obtain ⟨⟨_, _, body⟩, _⟩ := g
  subst hbody
  simp only [AxisBlock.waitingOn, hst, hactive]

theorem completeWait_reports {s : State} {a : Axis} {g : Segment} (hdev : s.dev ≠ .failed) (hactive : (s.axis a).active = some g)
    (hreport : g.record.report = true) (w : Wait) : completeWait a w s =
      (s.modAxis a fun x => { x.waited w with active := none, lastRetired := some g.record.id, st := .idle }).withReport g.entry
        (axisReport (s.modAxis a (AxisBlock.waited w)) a .segment .ok none g.record.id 0 0 ((s.axis a).latch w.src).time
          (BitVec.ofNat 32 (bnat ((s.axis a).latch w.src).overrun))) := by
  have hmod : (s.modAxis a fun x => (x.setLatch w.src Latch.clear).applyRef w) = s.modAxis a (AxisBlock.waited w) :=
    State.modAxis_congr _ _ (AxisBlock.setLatch_applyRef ..)
  have hactive' : ((s.modAxis a (AxisBlock.waited w)).axis a).active = some g := by
    rw [State.modAxis_axis_same]
    exact hactive
  rw [completeWait, hmod, retireActive_fills hactive' hdev (by rw [hreport]; rfl), State.withReport_modAxis,
    State.modAxis_modAxis, State.modAxis_modAxis]
  rfl

/-- Settles O48. -/
theorem eventCompletesTheWait : Obligations.EventCompletesTheWait := by
  intro s a m g w x h hst hactive hbody hsrc hreport hindex hhome hclear hothers hdisarmed
  have hdev : s.dev ≠ .failed := Ready.not_failed h
  have hwaits : x.waitingOn = some w := AxisBlock.waitingOn_of hst hactive hbody
  have hfed : fedSources (.trg m) a x.cfg = [.trg m] := fedSources_trigger hindex hhome
  have htaker : ∀ b, waitTaker (.trg m) s b ++ captureTaker (.trg m) s b = waitTaker (.trg m) s b := fun b => by
    rw [captureTaker_of_waiting h.2, AxisBlock.armedFor_of_disarmed (hdisarmed b)]
    exact List.append_nil _
  have htakers : s.takers (.trg m) = [.wait a w] := by
    refine (flatMap_of_unique (by decide) (a := a) (by fin_cases a <;> decide) fun b hb => ?_).trans ?_
    · rw [htaker, waitTaker_of_ne (hothers b hb)]
    · rw [htaker, waitTaker_of_waits hdev hwaits]
      change w.src ∈ fedSources (.trg m) a x.cfg
      rw [hfed, hsrc]
      exact List.mem_singleton.mpr rfl
  have hexec := exec_event h.2 (.trg m)
  rw [htakers, inSomeOrder_one] at hexec
  have haxis : ((setLevel (eventLine (.trg m)) (eventLevel s (.trg m)) s).reached (.trg m)).axis a
      = x.setLatch (.trg m) ((x.latch (.trg m)).take s.time) := by
    refine (State.reached_axis ..).trans ?_
    change x.takes s.time (fedSources (.trg m) a x.cfg) = _
    rw [hfed]
    rfl
  have hstate := State.reached_eq (.trg m) (setLevel (eventLine (.trg m)) (eventLevel s (.trg m)) s)
  generalize (setLevel (eventLine (.trg m)) (eventLevel s (.trg m)) s).reached (.trg m) = u at hexec haxis hstate
  have hwaits' : (({ u with freeCount := u.freeCount + 1 } : State).axis a).waitingOn = some w :=
    (congrArg AxisBlock.waitingOn haxis).trans hwaits
  have hrun : runTaker (.trg m) (.wait a w) { u with freeCount := u.freeCount + 1 }
      = acceptInEvent (completeWait a w { u with freeCount := u.freeCount + 1 }) := if_pos hwaits'
  generalize hv : ({ u with freeCount := u.freeCount + 1 } : State) = v at hexec hrun
  have hvaxis : v.axis a = x.setLatch (.trg m) ((x.latch (.trg m)).take s.time) := by rw [← hv]; exact haxis
  have hvdev : v.dev = .online := by rw [← hv, hstate]; exact h.1
  have hvinterp : v.interp = .waiting := by rw [← hv, hstate]; exact h.2
  have hvtime : v.time = s.time := by rw [← hv, hstate]; rfl
  have hventries : v.entries = s.entries := by rw [← hv, hstate]; rfl
  have hvqueue : v.fillQueue = s.fillQueue := by rw [← hv, hstate]; rfl
  have hdone := completeWait_reports (s := v) (a := a) (g := g) (by rw [hvdev]; decide) (by rw [hvaxis]; exact hactive) hreport w
  have hlatch : (v.axis a).latch w.src = { flag := true, overrun := false, time := s.time } := by
    rw [hvaxis, hsrc, AxisBlock.latch_setLatch, if_pos rfl, Latch.take, hclear]
    rfl
  have hreached : ((v.modAxis a fun y => { y.waited w with active := none, lastRetired := some g.record.id, st := .idle }).axis a)
      = { (x.setLatch (.trg m) ((x.latch (.trg m)).take s.time)).waited w with
          active := none, lastRetired := some g.record.id, st := .idle } := by
    rw [State.modAxis_axis_same, hvaxis]
  have hwdev : (completeWait a w v).dev = .online := by rw [hdone]; exact hvdev
  have hwinterp : (completeWait a w v).interp = .waiting := by rw [hdone]; exact hvinterp
  rw [hrun, acceptInEvent_of_waiting hwinterp, settle_of_online hwdev hwinterp, hdone] at hexec
  refine ⟨_, hexec, ?_⟩
  rw [State.withReport_axis, hreached, State.withReport_fillQueue, State.modAxis_fillQueue, hvqueue, State.withReport_entry_same, hlatch]
  refine ⟨rfl, rfl, ?_, rfl, rfl, rfl, rfl, rfl, rfl, ?_⟩
  · change ((x.setLatch _ _).setLatch w.src Latch.clear).latch (.trg m) = _
    rw [AxisBlock.latch_setLatch, if_pos hsrc.symm]
  · rw [axisReport, State.modAxis_axis_same, hvaxis, State.modAxis_time, hvtime, AxisRecord.id_eq]
    have hkind : g.record.kind = 0x03 := by simp only [AxisRecord.kind, hbody]
    rw [hkind]
    rfl

/-! ### O49: the capture -/

theorem captureEvent_captures {s : State} {e : Fin 24} (hdev : s.dev ≠ .failed) (hfree : s.freeGeneral = some e) (a : Axis) :
    captureEvent a s = (s.modAxis a fun x => { x with arm := x.arm.captured }).withReport e
      (axisReport s a .capture .ok none { tag := (s.axis a).arm.tag, kind := 0x19 } 0 0
        (BitVec.ofNat 32 (s.axis a).arm.missed) (captureWord (s.axis a).arm.captured)) := by
  simp only [captureEvent, hfree]
  rw [fill_eq_withReport e _ hdev, State.withReport_modAxis]

theorem captureEvent_misses {s : State} (hfree : s.freeGeneral = none) (a : Axis) :
    captureEvent a s = s.modAxis a fun x => { x with arm := { x.arm with missed := satInc x.arm.missed } } := by
  simp only [captureEvent, hfree]

theorem CaptureArm.captured_eq {m : CaptureArm} (h : m.armed = true) : m.captured = { m with
    missed := 0, remaining := m.remaining.map fun n => n - 1
    armed := decide ((m.remaining.map fun n => n - 1) ≠ some 0) } := by
  cases hn : m.remaining with
  | none => simp [CaptureArm.captured, hn, h]
  | some n =>
    have hleft : 1 < n ↔ ¬ n - 1 = 0 := by omega
    simp [CaptureArm.captured, hn, hleft]

/-- Settles O49. -/
theorem armedEventIsCapturedOrMissed : Obligations.ArmedEventIsCapturedOrMissed := by
  intro s a m x left h harmed hsource hindex hhome hothers hwaits
  have hfed : fedSources (.trg m) a x.cfg = [.trg m] := fedSources_trigger hindex hhome
  have harmedFor : ∀ y : AxisBlock, y.cfg = x.cfg → y.arm = x.arm → y.armedFor (.trg m) a = true := fun y hcfg harm => by
    rw [AxisBlock.armedFor, hcfg, harm, hfed]
    simp [CaptureArm.armedOn, harmed, hsource]
  have htaker : ∀ b, waitTaker (.trg m) s b ++ captureTaker (.trg m) s b
      = if (s.axis b).armedFor (.trg m) b then [.capture b] else [] := fun b => by
    rw [waitTaker_of_ne (hwaits b), captureTaker_of_waiting h.2]
    exact List.nil_append _
  have htakers : s.takers (.trg m) = [.capture a] := by
    refine (flatMap_of_unique (by decide) (a := a) (by fin_cases a <;> decide) fun b hb => ?_).trans ?_
    · rw [htaker, AxisBlock.armedFor_of_disarmed (hothers b hb)]
      rfl
    · exact (htaker a).trans (if_pos (harmedFor _ rfl rfl))
  have hexec := exec_event h.2 (.trg m)
  rw [htakers, inSomeOrder_one] at hexec
  have haxis : ((setLevel (eventLine (.trg m)) (eventLevel s (.trg m)) s).reached (.trg m)).axis a
      = { x with latches := (x.reached (.trg m) a s.time).latches } :=
    (State.reached_axis ..).trans (AxisBlock.takes_keeps ..)
  have hstate := State.reached_eq (.trg m) (setLevel (eventLine (.trg m)) (eventLevel s (.trg m)) s)
  generalize (setLevel (eventLine (.trg m)) (eventLevel s (.trg m)) s).reached (.trg m) = u at hexec haxis hstate
  have hrun : runTaker (.trg m) (.capture a) { u with freeCount := u.freeCount + 1 }
      = captureEvent a { u with freeCount := u.freeCount + 1 } :=
    if_pos (harmedFor (u.axis a) (by rw [haxis]) (by rw [haxis]))
  generalize hv : ({ u with freeCount := u.freeCount + 1 } : State) = v at hexec hrun
  have hvaxis : v.axis a = { x with latches := (x.reached (.trg m) a s.time).latches } := by rw [← hv]; exact haxis
  have hvdev : v.dev = .online := by rw [← hv, hstate]; exact h.1
  have hvinterp : v.interp = .waiting := by rw [← hv, hstate]; exact h.2
  have hvtime : v.time = s.time := by rw [← hv, hstate]; rfl
  have hventries : v.entries = s.entries := by rw [← hv, hstate]; rfl
  have hvqueue : v.fillQueue = s.fillQueue := by rw [← hv, hstate]; rfl
  have hvfree : v.freeGeneral = s.freeGeneral := by rw [← hv, hstate]; rfl
  rw [hrun] at hexec
  constructor
  · intro hfree
    obtain ⟨e, he⟩ := freeGeneral_of hfree
    have hdone := captureEvent_captures (by rw [hvdev]; decide) (hvfree.trans he) a
    rw [settle_of_online (by rw [hdone]; exact hvdev) (by rw [hdone]; exact hvinterp), hdone] at hexec
    refine ⟨e, _, freeGeneral_some he, hexec, ?_⟩
    rw [State.withReport_axis, State.modAxis_axis_same, hvaxis, State.withReport_fillQueue, State.modAxis_fillQueue, hvqueue,
      State.withReport_entry_same]
    refine ⟨CaptureArm.captured_eq harmed, rfl, ?_, rfl, rfl⟩
    rw [axisReport, hvaxis, hvtime]
  · intro hfull
    have hdone := captureEvent_misses (hvfree.trans (freeGeneral_none hfull)) a
    rw [settle_of_online (by rw [hdone]; exact hvdev) (by rw [hdone]; exact hvinterp), hdone] at hexec
    refine ⟨_, hexec, ?_, hvqueue, hventries⟩
    rw [State.modAxis_axis_same, hvaxis]
    rfl

end Sys2Proof.Machine
end

section
/-! PROOFS. O50: a sample qualifies each line of its class and delivers the edges. -/

namespace Sys2Proof.Machine
open Sys2Proof

/-! ### What an edge leaves beside its line -/

theorem limitAct_same (a : Axis) (side : Side) (high : Bool) (s : State) : SameRest s (limitAct a side high s) := by
  unfold limitAct
  split
  next hstops =>
    split
    · rfl
    · refine (haltCurrent_seq a _ fun hoff => ?_).rest
      obtain ⟨-, -, hmoves, -⟩ := (limitStops_iff ..).mp hstops
      rw [hoff] at hmoves
      simp at hmoves
  next => rfl

theorem quadErrorAct_same (a : Axis) (s : State) : SameRest s (quadErrorAct a s) := by
  unfold quadErrorAct
  dsimp only
  split
  next hhalts =>
    simp only [Bool.and_eq_true, bne_iff_ne] at hhalts
    exact SameRest.trans (t := s.modAxis a _) rfl (haltCurrent_seq a _ hhalts.1.1.2).rest
  next => rfl

theorem captureEvent_same (a : Axis) (s : State) : SameRest s (captureEvent a s) := by
  unfold captureEvent
  dsimp only
  split
  · rfl
  · exact SameRest.trans (fill_seq ..).rest rfl

theorem reachLatches_same (l : EventLine) (a : Axis) (s : State) : SameRest s (reachLatches l a s) := by
  rw [reachLatches_eq]
  rfl

theorem runTaker_same (l : EventLine) (t : EventTaker) {s : State} (h : s.interp = .waiting) : SameRest s (runTaker l t s) := by
  unfold runTaker
  split
  · exact reachLatches_same ..
  · split
    next a w hwaits =>
      have hst := AxisBlock.waitingOn_st hwaits
      have hdone : SameRest s (completeWait a w s) :=
        (completeWait_seq a w (by simp [hst, AxisState.moving]) (by simp [hst]) (by simp [hst]) (by simp [hst])).rest
      rwa [acceptInEvent_of_waiting (hdone.interp.trans h)]
    next => exact SameRest.refl s
  · split
    · exact captureEvent_same ..
    · exact SameRest.refl s

/-- Operations that keep the rest of a state with no record in hand keep it in a row. -/
theorem SameRest.foldl {α : Type} {f : α → State → State} (h : ∀ x {s : State}, s.interp = .waiting → SameRest s (f x s)) (l : List α)
    {s : State} (hi : s.interp = .waiting) : SameRest s (l.foldl (fun t x => f x t) s) := by
  induction l generalizing s with
  | nil => exact SameRest.refl s
  | cons x l ih => exact (h x hi).trans (ih ((h x hi).interp.trans hi))

theorem eventAct_same (l : EventLine) {s : State} (h : s.interp = .waiting) : SameRest s (eventAct l s) := by
  rw [eventAct_of_waiting l h]
  have hreached : SameRest s (allAxes.foldl (fun t a => reachLatches l a t) s) :=
    SameRest.foldl (fun a s _ => reachLatches_same l a s) _ h
  refine hreached.trans ?_
  generalize allAxes.foldl (fun t a => reachLatches l a t) s = u at hreached
  exact SameRest.trans (t := { u with freeCount := u.freeCount + _ }) rfl
    (SameRest.foldl (fun t s hs => runTaker_same l t hs) _ (hreached.interp.trans h))

/-! ### One edge -/

/-- The lines whose edges a delivery holds. -/
def Delivery.lines : Delivery → List Line
  | .limit a side _ => [limitLine a side]
  | .encoder a line _ => [quadInput a line]
  | .quadError a => [.encA a, .encB a]
  | .event l _ => [eventLine l]

/-- The lines of a delivery take their new levels. -/
def Delivery.level (d : Delivery) (s : State) : State :=
  match d with
  | .limit a side high => setLevel (limitLine a side) high s
  | .encoder a line high => setLevel (quadInput a line) high s
  | .quadError a => setLevel (.encB a) (! (quadLevels s a).2) (setLevel (.encA a) (! (quadLevels s a).1) s)
  | .event l high => setLevel (eventLine l) high s

theorem Delivery.level_interp (d : Delivery) (s : State) : (d.level s).interp = s.interp := by cases d <;> rfl

theorem runDelivery_same (d : Delivery) {s : State} (h : s.interp = .waiting) : SameRest (d.level s) (runDelivery d s) := by
  cases d with
  | limit a side high => exact limitAct_same ..
  | encoder a line high => rfl
  | quadError a => exact quadErrorAct_same ..
  | event l high =>
    change SameRest _ (if _ then _ else _)
    split
    · exact eventAct_same l h
    · exact SameRest.refl _

theorem settle_same {s : State} (h : s.interp = .waiting) : SameRest s (settle s) := by
  rw [settle_of_waiting h]
  exact (offIfAtRest_seq s).rest

theorem deliverEdge_same (d : Delivery) {s : State} (h : s.interp = .waiting) : SameRest (d.level s) (deliverEdge d s) := by
  have hrun := runDelivery_same d h
  have hcount : SameRest (d.level s) { runDelivery d s with freeCount := (runDelivery d s).freeCount + 1 } := hrun.trans rfl
  unfold deliverEdge
  dsimp only
  split
  · exact hcount.trans (settle_same (hcount.interp.trans ((d.level_interp s).trans h)))
  · exact hcount

/-- The edges a delivery holds go to the levels of the sample. -/
def Delivery.Goes (bit : Line → Bool) : Delivery → Prop
  | .limit a side high => high = bit (limitLine a side)
  | .encoder a line high => high = bit (quadInput a line)
  | .quadError _ => True
  | .event l high => high = bit (eventLine l)

/-- A line right after its edge (R84). -/
def LineState.edged (bit : Bool) : LineState := { level := bit, run := 0, sampled := true }

theorem setLevel_line (l : Line) (high : Bool) (s : State) (k : Line) :
    (setLevel l high s).line k = if k = l then .edged high else s.line k := State.setLine_line ..

theorem Delivery.level_line {bit : Line → Bool} {d : Delivery} (hgoes : d.Goes bit) {s : State}
    (hold : ∀ l ∈ d.lines, (s.line l).level = ! bit l) (k : Line) :
    (d.level s).line k = if k ∈ d.lines then .edged (bit k) else s.line k := by
  have hone : ∀ l, (setLevel l (bit l) s).line k = if k ∈ [l] then .edged (bit k) else s.line k := fun l => by
    rw [setLevel_line]
    simp only [List.mem_singleton]
    by_cases hk : k = l
    · rw [if_pos hk, if_pos hk, hk]
    · rw [if_neg hk, if_neg hk]
  cases d with
  | limit a side high => exact hgoes ▸ hone _
  | encoder a line high => exact hgoes ▸ hone _
  | event l high => exact hgoes ▸ hone _
  | quadError a =>
    have ha := hold (.encA a) (by simp [Delivery.lines])
    have hb := hold (.encB a) (by simp [Delivery.lines])
    change (setLevel (.encB a) (! (s.line (.encB a)).level) (setLevel (.encA a) (! (s.line (.encA a)).level) s)).line k = _
    rw [ha, hb, Bool.not_not, Bool.not_not, setLevel_line, setLevel_line]
    simp only [Delivery.lines, List.mem_cons, List.not_mem_nil, or_false]
    by_cases hka : k = .encA a
    · simp [hka]
    · by_cases hkb : k = .encB a
      · simp [hkb]
      · simp [hka, hkb]

/-! ### The edges of a sample in a row -/

/-- Outside its lines and what the operations of the sequencers change, `t` is `s`. -/
def SameButLines (s t : State) : Prop := SameRest { s with lines := t.lines } t

theorem SameButLines.interp {s t : State} (h : SameButLines s t) : t.interp = s.interp :=
  SameRest.interp (s := { s with lines := t.lines }) h

theorem SameButLines.inputs {s t : State} (h : SameButLines s t) : t.inputs = s.inputs :=
  SameRest.inputs (s := { s with lines := t.lines }) h

theorem SameButLines.pending {s t : State} (h : SameButLines s t) : t.pending = s.pending :=
  SameRest.pending (s := { s with lines := t.lines }) h

theorem SameButLines.pins {s t : State} (h : SameButLines s t) : t.pins = s.pins :=
  SameRest.pins (s := { s with lines := t.lines }) h

theorem SameButLines.fastDue {s t : State} (h : SameButLines s t) : t.fastDue = s.fastDue :=
  SameRest.fastDue (s := { s with lines := t.lines }) h

theorem SameButLines.slowDue {s t : State} (h : SameButLines s t) : t.slowDue = s.slowDue :=
  SameRest.slowDue (s := { s with lines := t.lines }) h

theorem SameButLines.trans {s t u : State} (h : SameButLines s t) (k : SameButLines t u) : SameButLines s u := by
  unfold SameButLines SameRest at *
  rw [k, h]
  rfl

theorem deliverEdge_sameButLines (d : Delivery) {s : State} (h : s.interp = .waiting) : SameButLines s (deliverEdge d s) := by
  have hsame := deliverEdge_same d h
  have hlines := hsame.lines
  have hlevel : d.level s = { s with lines := (d.level s).lines } := by cases d <;> rfl
  rw [SameButLines, hlines, ← hlevel]
  exact hsame

/-- The edges of a sample in any order: their lines take the levels of the sample, and no other line changes. -/
theorem foldl_deliverEdge {bit : Line → Bool} (ds : List Delivery) (hgoes : ∀ d ∈ ds, d.Goes bit)
    (hnodup : (ds.flatMap Delivery.lines).Nodup) {s : State} (hi : s.interp = .waiting)
    (hold : ∀ l ∈ ds.flatMap Delivery.lines, (s.line l).level = ! bit l) :
    SameButLines s (ds.foldl (fun t d => deliverEdge d t) s) ∧ ∀ k, (ds.foldl (fun t d => deliverEdge d t) s).line k =
      if k ∈ ds.flatMap Delivery.lines then .edged (bit k) else s.line k := by
  induction ds generalizing s with
  | nil => exact ⟨rfl, fun k => rfl⟩
  | cons d ds ih =>
    rw [List.flatMap_cons] at hnodup hold
    obtain ⟨-, hrest, hdisjoint⟩ := List.nodup_append.mp hnodup
    have hsame := deliverEdge_sameButLines d hi
    have hline : ∀ k, (deliverEdge d s).line k = if k ∈ d.lines then .edged (bit k) else s.line k := fun k => by
      have hlevel := Delivery.level_line (hgoes d List.mem_cons_self) (s := s) (fun l hl => hold l (List.mem_append_left _ hl)) k
      rw [← hlevel, State.line, (deliverEdge_same d hi).lines]
      rfl
    obtain ⟨hthen, hlines⟩ := ih (fun d' hd' => hgoes d' (List.mem_cons_of_mem _ hd')) hrest (hsame.interp.trans hi) fun l hl => by
      rw [hline, if_neg fun hd => hdisjoint l hd l hl rfl]
      exact hold l (List.mem_append_right _ hl)
    refine ⟨hsame.trans hthen, fun k => (hlines k).trans ?_⟩
    rw [hline, List.flatMap_cons]
    by_cases hk : k ∈ ds.flatMap Delivery.lines
    · rw [if_pos hk, if_pos (List.mem_append_right _ hk)]
    · rw [if_neg hk]
      simp only [List.mem_append, hk, or_false]

/-! ### The deliveries of a sample -/

/-- The lines in the order of the deliveries. -/
def linesInTurn : List Line :=
  (allAxes.flatMap fun a => [.encA a, .encB a, .encI a, .limP a, .limN a, .home a]) ++ allAxes.map .trg

theorem linesInTurn_nodup : linesInTurn.Nodup := by decide

theorem mem_linesInTurn (l : Line) : l ∈ linesInTurn := by
  cases l <;> rename_i a <;> fin_cases a <;> decide

theorem quadDelivery_lines (edge : Line → Bool) (levels : BitVec 28) (a : Axis) :
    (quadDelivery edge levels a).flatMap Delivery.lines = [Line.encA a, Line.encB a].filter edge := by
  cases ha : edge (.encA a) <;> cases hb : edge (.encB a) <;> simp [quadDelivery, ha, hb, Delivery.lines, quadInput]

theorem eventDelivery_lines (edge : Line → Bool) (levels : BitVec 28) (l : EventLine) :
    (eventDelivery edge levels l).flatMap Delivery.lines = [eventLine l].filter edge := by
  cases h : edge (eventLine l) <;> simp [eventDelivery, h, Delivery.lines]

theorem limitDelivery_lines (edge : Line → Bool) (levels : BitVec 28) (a : Axis) (side : Side) :
    (limitDelivery edge levels a side).flatMap Delivery.lines = [limitLine a side].filter edge := by
  cases h : edge (limitLine a side) <;> simp [limitDelivery, h, Delivery.lines]

theorem deliveries_lines (cls : FilterClass) (levels : BitVec 28) (s : State) :
    (deliveries cls levels s).flatMap Delivery.lines = linesInTurn.filter (edgesOf cls levels s) := by
  have hmap : allAxes.map Line.trg = allAxes.flatMap fun m => [Line.trg m] := by decide
  rw [linesInTurn, hmap, List.filter_append, List.filter_flatMap, List.filter_flatMap, deliveries, List.flatMap_append,
    List.flatMap_assoc, List.flatMap_assoc]
  congr 1
  · refine congrArg (List.flatMap · allAxes) (funext fun a => ?_)
    simp only [List.flatMap_append, quadDelivery_lines, eventDelivery_lines, limitDelivery_lines, ← List.filter_append]
    rfl
  · exact congrArg (List.flatMap · allAxes) (funext fun m => eventDelivery_lines ..)

theorem deliveries_go (cls : FilterClass) (levels : BitVec 28) (s : State) :
    ∀ d ∈ deliveries cls levels s, d.Goes fun l => levels.getLsbD (lineIx l).val := by
  have hquad : ∀ edge a, ∀ d ∈ quadDelivery edge levels a, d.Goes fun l => levels.getLsbD (lineIx l).val := fun edge a d hd => by
    unfold quadDelivery at hd
    split at hd
    next => rw [List.mem_singleton.mp hd]; trivial
    next =>
      split at hd
      next => rw [List.mem_singleton.mp hd]; rfl
      next =>
        split at hd
        next => rw [List.mem_singleton.mp hd]; rfl
        next => exact absurd hd List.not_mem_nil
  have hevent : ∀ edge l, ∀ d ∈ eventDelivery edge levels l, d.Goes fun l => levels.getLsbD (lineIx l).val := fun edge l d hd => by
    unfold eventDelivery at hd
    split at hd
    next => rw [List.mem_singleton.mp hd]; rfl
    next => exact absurd hd List.not_mem_nil
  have hlimit : ∀ edge a side, ∀ d ∈ limitDelivery edge levels a side, d.Goes fun l => levels.getLsbD (lineIx l).val :=
    fun edge a side d hd => by
      unfold limitDelivery at hd
      split at hd
      next => rw [List.mem_singleton.mp hd]; rfl
      next => exact absurd hd List.not_mem_nil
  intro d hd
  simp only [deliveries, List.mem_append, List.mem_flatMap] at hd
  obtain ⟨a, -, (((hd | hd) | hd) | hd) | hd⟩ | ⟨m, -, hd⟩ := hd
  · exact hquad _ _ _ hd
  · exact hevent _ _ _ hd
  · exact hlimit _ _ _ _ hd
  · exact hlimit _ _ _ _ hd
  · exact hevent _ _ _ hd
  · exact hevent _ _ _ hd

/-! ### The lines of a sample -/

theorem foldl_setLine (v : Line → LineState) (ls : List Line) (s : State) :
    ls.foldl (fun t l => t.setLine l (v l)) s = { s with lines := (ls.foldl (fun t l => t.setLine l (v l)) s).lines } ∧
      ∀ k, (ls.foldl (fun t l => t.setLine l (v l)) s).line k = if k ∈ ls then v k else s.line k := by
  induction ls generalizing s with
  | nil => exact ⟨rfl, fun k => rfl⟩
  | cons l ls ih =>
    obtain ⟨heq, hline⟩ := ih (s.setLine l (v l))
    refine ⟨heq.trans rfl, fun k => (hline k).trans ?_⟩
    rw [State.setLine_line]
    by_cases hk : k ∈ ls
    · rw [if_pos hk, if_pos (List.mem_cons_of_mem _ hk)]
    · by_cases hkl : k = l
      · rw [if_neg hk, if_pos hkl, if_pos (List.mem_cons.mpr (.inl hkl)), hkl]
      · simp only [hk, hkl, if_false, List.mem_cons, or_self]

/-- The state of a sample before its edges are delivered, but for the quadrature states it begins. -/
def State.sampledLines (cls : FilterClass) (levels : BitVec 28) (s : State) : State := sampleLines cls levels (notePins cls levels s)

theorem notePins_line (cls : FilterClass) (levels : BitVec 28) (s : State) (l : Line) : (notePins cls levels s).line l = s.line l := by
  cases cls <;> rfl

theorem State.sampledLines_eq (cls : FilterClass) (levels : BitVec 28) (s : State) :
    s.sampledLines cls levels = { s with
      pins := (s.sampledLines cls levels).pins, fastDue := (s.sampledLines cls levels).fastDue
      slowDue := (s.sampledLines cls levels).slowDue, lines := (s.sampledLines cls levels).lines } := by
  have hfold := (foldl_setLine (fun l => ((notePins cls levels s).line l).sample (levels.getLsbD (lineIx l).val))
    ((classLines cls).filter fun l => ! edgesOf cls levels (notePins cls levels s) l) (notePins cls levels s)).1
  rw [State.sampledLines, sampleLines]
  rw [hfold]
  cases cls <;> rfl

theorem edgesOf_notePins (cls : FilterClass) (levels : BitVec 28) (s : State) :
    edgesOf cls levels (notePins cls levels s) = edgesOf cls levels s := by
  cases cls <;> rfl

theorem State.sampledLines_line (cls : FilterClass) (levels : BitVec 28) (s : State) (k : Line) :
    (s.sampledLines cls levels).line k =
      if (classLines cls).contains k = true ∧ edgesOf cls levels s k = false then (s.line k).sample (levels.getLsbD (lineIx k).val)
      else s.line k := by
  refine ((foldl_setLine ..).2 k).trans ?_
  simp only [List.mem_filter, edgesOf_notePins, notePins_line, Bool.not_eq_true', List.contains_iff_mem]

theorem firstQuad_same (cls : FilterClass) (s t : State) : SameRest t (firstQuad cls s t) := by
  cases cls with
  | slow => rfl
  | fast =>
    simp only [firstQuad, allAxes, List.foldl]
    generalize quadLevels t = q
    have hone : ∀ (u : State) (a : Axis) (c : Bool) (f : AxisBlock → AxisBlock), SameRest u (if c then u else u.modAxis a f) :=
      fun u a c f => by cases c <;> rfl
    exact (hone ..).trans ((hone ..).trans ((hone ..).trans (hone ..)))

theorem firstQuad_of_sampled {cls : FilterClass} {s : State}
    (h : cls = .fast → ∀ a, (s.line (.encA a)).sampled = true ∧ (s.line (.encB a)).sampled = true) (t : State) :
    firstQuad cls s t = t := by
  cases cls with
  | slow => rfl
  | fast =>
    have hone : ∀ a, ((s.line (.encA a)).sampled && (s.line (.encB a)).sampled) = true := fun a => by
      rw [(h rfl a).1, (h rfl a).2]
      rfl
    simp only [firstQuad, allAxes, List.foldl, hone, if_true]

/-! ### The whole sample -/

section
variable {s : State} (hi : s.interp = .waiting) (cls : FilterClass) (levels : BitVec 28)
include hi

/-- A sample changes its lines, the note of their raw levels, and what the operations of the sequencers change. -/
theorem sampleNow_same : SameButLines (s.sampledLines cls levels) (sampleNow cls levels s) ∧
    ∀ k, (sampleNow cls levels s).line k =
      if edgesOf cls levels s k then .edged (levels.getLsbD (lineIx k).val) else (s.sampledLines cls levels).line k := by
  have hquad := firstQuad_same cls s (s.sampledLines cls levels)
  have hinterp : (firstQuad cls s (s.sampledLines cls levels)).interp = .waiting := by
    rw [hquad.interp, State.sampledLines_eq]
    exact hi
  have hline : ∀ k, (firstQuad cls s (s.sampledLines cls levels)).line k = (s.sampledLines cls levels).line k := fun k => by
    rw [State.line, hquad.lines]
    rfl
  have hperm := arrange_perm (firstQuad cls s (s.sampledLines cls levels)).freeCount (deliveries cls levels s).length
    (deliveries cls levels s) le_rfl
  have hlines := hperm.flatMap_right Delivery.lines
  have hmem : ∀ l, l ∈ (arrange (firstQuad cls s (s.sampledLines cls levels)).freeCount (deliveries cls levels s).length
      (deliveries cls levels s)).flatMap Delivery.lines ↔ edgesOf cls levels s l = true := fun l => by
    rw [hlines.mem_iff, deliveries_lines, List.mem_filter]
    exact and_iff_right (mem_linesInTurn l)
  change SameButLines (s.sampledLines cls levels) (settle (inSomeOrder (deliveries cls levels s) deliverEdge
    (firstQuad cls s (s.sampledLines cls levels)))) ∧ ∀ k, (settle (inSomeOrder (deliveries cls levels s) deliverEdge
    (firstQuad cls s (s.sampledLines cls levels)))).line k = _
  rw [inSomeOrder]
  generalize arrange (firstQuad cls s (s.sampledLines cls levels)).freeCount (deliveries cls levels s).length
    (deliveries cls levels s) = ds at hperm hlines hmem
  generalize hv : ({ firstQuad cls s (s.sampledLines cls levels) with
    freeCount := (firstQuad cls s (s.sampledLines cls levels)).freeCount + (deliveries cls levels s).length } : State) = v
  have hvline : ∀ k, v.line k = (s.sampledLines cls levels).line k := fun k => by
    rw [← hline, ← hv]
    rfl
  obtain ⟨hsame, hafter⟩ := foldl_deliverEdge (bit := fun l => levels.getLsbD (lineIx l).val) (s := v) ds
    (fun d hd => deliveries_go cls levels s d (hperm.mem_iff.mp hd))
    (hlines.nodup_iff.mpr (by rw [deliveries_lines]; exact linesInTurn_nodup.filter _)) (by rw [← hv]; exact hinterp)
    fun l hl => by
      have hedge := (hmem l).mp hl
      rw [hvline, State.sampledLines_line, if_neg fun hno => by rw [hedge] at hno; exact Bool.false_ne_true hno.2.symm]
      simp only [edgesOf, LineState.edges, Bool.and_eq_true, bne_iff_ne] at hedge
      exact (Bool.eq_not.mpr hedge.2.1.2.symm)
  have hsettle := settle_same (hsame.interp.trans (by rw [← hv]; exact hinterp))
  have hfrom : SameButLines (s.sampledLines cls levels) v := by
    rw [← hv, SameButLines]
    change SameRest { s.sampledLines cls levels with lines := (firstQuad cls s (s.sampledLines cls levels)).lines } _
    rw [hquad.lines]
    exact hquad.trans rfl
  refine ⟨hfrom.trans (hsame.trans ?_), fun k => ?_⟩
  · rw [SameButLines, hsettle.lines]
    exact hsettle
  · rw [State.line, hsettle.lines]
    refine (hafter k).trans ?_
    rw [hvline]
    exact if_congr (hmem k) rfl rfl

end

theorem State.lines_ext {s t : State} (h : ∀ l, s.line l = t.line l) : s.lines = t.lines := by
  refine Vector.ext fun i hi => ?_
  obtain ⟨l, -, hl⟩ := (by decide : ∀ i : Fin 28, ∃ l ∈ linesInTurn, lineIx l = i) ⟨i, hi⟩
  have hline := h l
  simp only [State.line, hl] at hline
  exact hline

/-- Where every line of the class has been sampled and one delivery follows, a sample in ONLINE is that delivery. -/
theorem sampleNow_one {s : State} (h : s.Ready) {cls : FilterClass} {levels : BitVec 28}
    (hsampled : cls = .fast → ∀ a, (s.line (.encA a)).sampled = true ∧ (s.line (.encB a)).sampled = true) {d : Delivery}
    (hd : deliveries cls levels s = [d]) {u : State}
    (hu : { s.sampledLines cls levels with freeCount := s.freeCount + 1 } = u) :
    sampleNow cls levels s = { runDelivery d u with freeCount := (runDelivery d u).freeCount + 1 } := by
  have hcount : (s.sampledLines cls levels).freeCount = s.freeCount := by rw [State.sampledLines_eq]
  have hready : u.Ready := by
    rw [← hu, State.sampledLines_eq]
    exact h
  have hrun := runDelivery_same d hready.2
  have hdev : (runDelivery d u).dev = .online := hrun.dev.trans ((by cases d <;> rfl : (d.level u).dev = u.dev).trans hready.1)
  have hinterp : (runDelivery d u).interp = .waiting := hrun.interp.trans ((d.level_interp u).trans hready.2)
  have hedge := deliverEdge_of_online d hdev hinterp
  change settle (inSomeOrder (deliveries cls levels s) deliverEdge (firstQuad cls s (s.sampledLines cls levels))) = _
  rw [firstQuad_of_sampled hsampled, hd, inSomeOrder_one, hcount, hu, hedge]
  exact settle_of_online hdev hinterp

/-- The delivery of the edge of one line alone. -/
def deliveryOf (levels : BitVec 28) (l : Line) : Delivery :=
  match l with
  | .encA a => .encoder a .a (levels.getLsbD (lineIx l).val)
  | .encB a => .encoder a .b (levels.getLsbD (lineIx l).val)
  | .encI a => .event (.encI a) (levels.getLsbD (lineIx l).val)
  | .limP a => .limit a .pos (levels.getLsbD (lineIx l).val)
  | .limN a => .limit a .neg (levels.getLsbD (lineIx l).val)
  | .home a => .event (.home a) (levels.getLsbD (lineIx l).val)
  | .trg m => .event (.trg m) (levels.getLsbD (lineIx l).val)

theorem deliveries_of_line {cls : FilterClass} {levels : BitVec 28} {s : State} {l : Line}
    (h : ∀ k, edgesOf cls levels s k = decide (k = l)) : deliveries cls levels s = [deliveryOf levels l] := by
  rw [deliveries, (funext h : edgesOf cls levels s = _)]
  cases l <;> rename_i a <;> fin_cases a <;> rfl

theorem deliveries_of_pair {cls : FilterClass} {levels : BitVec 28} {s : State} {a : Axis}
    (h : ∀ k, edgesOf cls levels s k = decide (k = .encA a ∨ k = .encB a)) : deliveries cls levels s = [.quadError a] := by
  rw [deliveries, (funext h : edgesOf cls levels s = _)]
  fin_cases a <;> rfl

/-- The state of a sample before its one edge, its fields named from the state after it. -/
theorem sampleNow_before {s : State} (hi : s.interp = .waiting) (cls : FilterClass) (levels : BitVec 28) {ls : Vector LineState 28}
    (h : ls = (s.sampledLines cls levels).lines) : ({ s with
      pins := (sampleNow cls levels s).pins, fastDue := (sampleNow cls levels s).fastDue
      slowDue := (sampleNow cls levels s).slowDue, lines := ls, freeCount := s.freeCount + 1 } : State)
      = { s.sampledLines cls levels with freeCount := s.freeCount + 1 } := by
  have hsame := (sampleNow_same hi cls levels).1
  rw [h, hsame.pins, hsame.fastDue, hsame.slowDue]
  exact (congrArg (fun v : State => { v with freeCount := s.freeCount + 1 }) (s.sampledLines_eq cls levels)).symm

theorem settle_runDelivery {s : State} (h : s.Ready) (d : Delivery) : settle (runDelivery d s) = runDelivery d s :=
  have hrun := runDelivery_same d h.2
  settle_of_online (hrun.dev.trans ((by cases d <;> rfl : (d.level s).dev = s.dev).trans h.1))
    (hrun.interp.trans ((d.level_interp s).trans h.2))

/-- The command that the edge of an event line to a level gives. -/
def eventCommand (s : State) (l : EventLine) (high : Bool) : Option Instr :=
  if high = eventLevel s l then some (.event l) else none

/-- The command that the edge of a line to a level gives. -/
def edgeCommand (s : State) (l : Line) (high : Bool) : Option Instr :=
  match l with
  | .encA a => some (.encoderTransition a .a high)
  | .encB a => some (.encoderTransition a .b high)
  | .encI a => eventCommand s (.encI a) high
  | .limP a => some (.limitEdge a .pos high)
  | .limN a => some (.limitEdge a .neg high)
  | .home a => eventCommand s (.home a) high
  | .trg m => eventCommand s (.trg m) high

theorem exec_eventCommand {s : State} (h : s.Ready) {l : EventLine} {high : Bool} {c : Instr} (hc : eventCommand s l high = some c) :
    exec c s = .next (runDelivery (.event l high) s) := by
  obtain ⟨hhigh, hc⟩ := Option.ite_none_right_eq_some.mp hc
  rw [← Option.some.inj hc, hhigh, ← settle_runDelivery h]
  rfl

theorem exec_edgeCommand {s : State} (h : s.Ready) {levels : BitVec 28} {l : Line} {c : Instr}
    (hc : edgeCommand s l (levels.getLsbD (lineIx l).val) = some c) : exec c s = .next (runDelivery (deliveryOf levels l) s) := by
  cases l with
  | encA a => rw [← Option.some.inj hc]; rfl
  | encB a => rw [← Option.some.inj hc]; rfl
  | limP a => rw [← Option.some.inj hc, ← settle_runDelivery h]; rfl
  | limN a => rw [← Option.some.inj hc, ← settle_runDelivery h]; rfl
  | encI a => exact exec_eventCommand h hc
  | home a => exact exec_eventCommand h hc
  | trg m => exact exec_eventCommand h hc

theorem runDelivery_event_none {s : State} {l : EventLine} {high : Bool} (hc : eventCommand s l high = none) :
    runDelivery (.event l high) s = setLevel (eventLine l) high s :=
  if_neg fun hyes => Option.some_ne_none _ ((if_pos hyes).symm.trans hc)

/-- An edge that gives no command changes the level of its line alone (R85). -/
theorem runDelivery_of_none {s : State} {levels : BitVec 28} {l : Line}
    (hc : edgeCommand s l (levels.getLsbD (lineIx l).val) = none) :
    runDelivery (deliveryOf levels l) s = setLevel l (levels.getLsbD (lineIx l).val) s := by
  cases l with
  | encA a => exact absurd hc (Option.some_ne_none _)
  | encB a => exact absurd hc (Option.some_ne_none _)
  | limP a => exact absurd hc (Option.some_ne_none _)
  | limN a => exact absurd hc (Option.some_ne_none _)
  | encI a => exact runDelivery_event_none hc
  | home a => exact runDelivery_event_none hc
  | trg m => exact runDelivery_event_none hc

theorem setLevel_back {l : Line} {high : Bool} {before w : State} {ls : Vector LineState 28}
    (hw : ({ before with lines := ls } : State) = w) (hlines : before.lines = (setLevel l high w).lines) : setLevel l high w = before := by
  subst hw
  have hset : setLevel l high { before with lines := ls } = { before with lines := (setLevel l high { before with lines := ls }).lines } := rfl
  rw [hset, ← hlines]

/-- Settles O50. -/
theorem sampleQualifiesEachLine : Obligations.SampleQualifiesEachLine := by
  intro s cls levels depth inClass bit qualifies event command hi
  have hclass : ∀ l, inClass l = (classLines cls).contains l := fun l => by
    cases cls <;> cases l <;> rename_i a <;> fin_cases a <;> rfl
  have hdepth : classDepth s.inputs cls = depth := by cases cls <;> rfl
  have hedge : ∀ l, edgesOf cls levels s l = true ↔ qualifies l := fun l => by
    simp only [qualifies, hclass, edgesOf, LineState.edges, hdepth, Bool.and_eq_true, bne_iff_ne, beq_iff_eq, and_assoc]
    rfl
  obtain ⟨hsame, hline⟩ := sampleNow_same hi cls levels
  have hfrom := s.sampledLines_eq cls levels
  have hsampledLine : ∀ l, (sampleNow cls levels s).line l = if edgesOf cls levels s l then .edged (bit l)
      else if inClass l then (s.line l).sample (bit l) else s.line l := fun l => by
    rw [hline, State.sampledLines_line, hclass]
    cases edgesOf cls levels s l <;> cases (classLines cls).contains l <;> rfl
  have hencoder : cls = .fast → ∀ a, inClass (.encA a) = true ∧ inClass (.encB a) = true := fun hcls a => by
    change (cls == .fast) = true ∧ (cls == .fast) = true
    rw [hcls]
    exact ⟨rfl, rfl⟩
  have hnoEdge : ∀ l, ¬ qualifies l → edgesOf cls levels s l = false := fun l hno =>
    Bool.eq_false_iff.mpr (mt (hedge l).mp hno)
  refine ⟨sampleNow cls levels s, rfl, ?_, ?_, fun l hl => ?_, fun l hl => ⟨fun hs => ?_, fun hs hb => ?_, fun hs hb hr => ?_,
    fun hs hb hr => ?_⟩, fun hq hf hall => ?_, fun h hall => ?_⟩
  · exact (hsame.inputs).trans (by rw [hfrom])
  · exact (hsame.pending).trans (by rw [hfrom])
  · rw [hsampledLine, hnoEdge l fun hno => Bool.false_ne_true (hl.symm.trans hno.1), hl]
    rfl
  · rw [hsampledLine, hnoEdge l fun hno => Bool.false_ne_true (hs.symm.trans hno.2.1), hl]
    simp [LineState.sample, hs]
  · rw [hsampledLine, hnoEdge l fun hno => hno.2.2.1 hb, hl]
    simp [LineState.sample, hs, hb]
  · rw [hsampledLine, (hedge l).mpr ⟨hl, hs, hb, hr⟩]
    rfl
  · rw [hsampledLine, hnoEdge l fun hno => hr hno.2.2.2, hl]
    simp [LineState.sample, hs, hb]
  · have hsampled : cls = .fast → ∀ a, (s.line (.encA a)).sampled = true ∧ (s.line (.encB a)).sampled = true := fun hcls a =>
      ⟨(hall (.encA a) (hencoder hcls a).1).1, (hall (.encB a) (hencoder hcls a).2).1⟩
    have hnone : deliveries cls levels s = [] := by
      have hedges : edgesOf cls levels s = fun _ => false := funext fun l => hnoEdge l fun hyes =>
        (hall l hyes.1).2.elim hyes.2.2.1 fun hr => hr hyes.2.2.2
      rw [deliveries, hedges]
      rfl
    have hquiet : sampleNow cls levels s = s.sampledLines cls levels := by
      change settle (inSomeOrder (deliveries cls levels s) deliverEdge (firstQuad cls s (s.sampledLines cls levels))) = _
      rw [hnone, inSomeOrder_nil, firstQuad_of_sampled hsampled, settle_of_quiet]
      · rw [hfrom]; exact hq
      · rw [hfrom]; exact hf
      · rw [hfrom]; exact hi
    rw [hquiet, hfrom]
    exact ⟨rfl, rfl, rfl⟩
  · have hsampled : cls = .fast → ∀ a, (s.line (.encA a)).sampled = true ∧ (s.line (.encB a)).sampled = true := fun hcls a =>
      ⟨hall (.encA a) (hencoder hcls a).1, hall (.encB a) (hencoder hcls a).2⟩
    have hkeep : ∀ l, qualifies l → (s.sampledLines cls levels).line l = s.line l := fun l hl => by
      rw [State.sampledLines_line, if_neg fun hno => by rw [(hedge l).mpr hl] at hno; exact Bool.false_ne_true hno.2.symm]
    have hafter : ∀ l, ¬ qualifies l → (sampleNow cls levels s).line l = (s.sampledLines cls levels).line l := fun l hl => by
      rw [hline, hnoEdge l hl]
      rfl
    have hu := fun ls => sampleNow_before hi cls levels (ls := ls)
    generalize hw : ({ s.sampledLines cls levels with freeCount := s.freeCount + 1 } : State) = w at hu
    have hdelivers := fun d hd => sampleNow_one h hsampled (d := d) hd hw
    have hready : w.Ready := by
      rw [← hw, hfrom]
      exact h
    have hinputs : w.inputs = s.inputs := by rw [← hw, hfrom]
    have hcommand : ∀ l, edgeCommand w l (bit l) = command l := fun l => by
      cases l <;> simp only [edgeCommand, eventCommand, eventLevel, hinputs] <;> rfl
    generalize sampleNow cls levels s = t at hu hdelivers hafter ⊢
    intro before
    refine ⟨fun l hl hone => ?_, fun a ha hb hpair => ?_⟩
    · have hdeliver := hdelivers _ (deliveries_of_line (l := l) fun k => by
        by_cases hk : k = l
        · rw [hk, (hedge l).mpr hl, decide_eq_true rfl]
        · rw [decide_eq_false hk, hnoEdge k fun hyes => hk (hone k hyes)])
      have hback : before.setLine l (s.line l) = w := hu _ (State.lines_ext (s := before.setLine l (s.line l)) fun k => by
        rw [State.setLine_line]
        by_cases hk : k = l
        · rw [if_pos hk, hk, hkeep l hl]
        · rw [if_neg hk]
          exact hafter k fun hyes => hk (hone k hyes))
      rw [hback]
      refine ⟨fun c hc => ⟨_, exec_edgeCommand hready ((hcommand l).trans hc), hdeliver⟩, fun hc => ?_⟩
      rw [runDelivery_of_none ((hcommand l).trans hc)] at hdeliver
      have hlines : before.lines = (setLevel l (bit l) w).lines := by
        have heq := congrArg State.lines hdeliver
        exact heq
      rw [setLevel_back (hu _ rfl) hlines] at hdeliver
      exact hdeliver
    · have hdeliver := hdelivers _ (deliveries_of_pair (a := a) fun k => by
        by_cases hk : k = .encA a ∨ k = .encB a
        · rw [decide_eq_true hk]
          obtain rfl | rfl := hk
          · exact (hedge _).mpr ha
          · exact (hedge _).mpr hb
        · rw [decide_eq_false hk, hnoEdge k fun hyes => hk (hpair k hyes)])
      have hback : (before.setLine (.encA a) (s.line (.encA a))).setLine (.encB a) (s.line (.encB a)) = w :=
        hu _ (State.lines_ext (s := (before.setLine (.encA a) (s.line (.encA a))).setLine (.encB a) (s.line (.encB a))) fun k => by
          rw [State.setLine_line, State.setLine_line]
          by_cases hkb : k = .encB a
          · rw [if_pos hkb, hkb, hkeep (.encB a) hb]
          · rw [if_neg hkb]
            by_cases hka : k = .encA a
            · rw [if_pos hka, hka, hkeep (.encA a) ha]
            · rw [if_neg hka]
              exact hafter k fun hyes => (hpair k hyes).elim hka hkb)
      rw [hback]
      refine ⟨_, congrArg Host.Outcome.next (settle_runDelivery hready (.quadError a)), hdeliver⟩

end Sys2Proof.Machine
end

section
/-! PROOFS. O42: the arrival that completes a group releases it. -/

namespace Sys2Proof.Machine
open Sys2Proof

/-! ### The release of one member -/

/-- An axis holds a DWELL or a MOVE in a general entry, with no stop request. -/
def State.Holds (s : State) (b : Axis) : Prop :=
  (s.axis b).stopReq = none ∧ ∃ h, (s.axis b).held = some h ∧ h.entry.val < 16 ∧
    ((∃ n k, h.record.body = .dwell n k) ∨ ∃ m, h.record.body = .move m)

/-- From `s` to `t` an axis that held `h` was released: it begins its DWELL, runs its MOVE, or halts (R73). -/
structure Released (s t : State) (b : Axis) (h : Held) : Prop where
  dwell : ∀ n k, h.record.body = .dwell n k → t.axis b = { unhold h (s.axis b) with st := .dwell }
  runs : ∀ m, h.record.body = .move m → startFault s b m = none → t.axis b = (unhold h (s.axis b)).enterRun m
  halts : ∀ m c, h.record.body = .move m → startFault s b m = some c →
    t.axis b = (unhold h (s.axis b)).haltedBy c ∧
      ∃ f, t.entry (faultSlot b) = .filled f ∧ f.tag = h.record.tag ∧ f.cause = some c

/-- The release of an axis concerns its block, the lines and its fault slot. -/
theorem Released.congr {s t u v : State} {b : Axis} {h : Held} (hr : Released s t b h) (haxis : s.axis b = u.axis b)
    (hlines : u.lines = s.lines) (haxis' : v.axis b = t.axis b) (hslot : v.entry (faultSlot b) = t.entry (faultSlot b)) :
    Released u v b h := by
  have hfault : ∀ m, startFault u b m = startFault s b m := fun m => startFault_congr (by rw [haxis]) hlines
  exact ⟨fun n k hb => by rw [haxis', ← haxis, hr.dwell n k hb],
    fun m hb hm => by rw [haxis', ← haxis, hr.runs m hb (hfault m ▸ hm)],
    fun m c hb hm => by rw [haxis', ← haxis, hslot]; exact hr.halts m c hb (hfault m ▸ hm)⟩

/-- A member whose held record has become its active segment. -/
def State.unheld (s : State) (a : Axis) (h : Held) : State :=
  (s.modAxis a (unhold h)).setEntry h.entry (.reserved (.axisRecord a))

section
variable {s : State} {a : Axis} {h : Held} (hheld : (s.axis a).held = some h)
include hheld

theorem releaseMember_dwell {n : Nat} {k : Option GroupIx} (hbody : h.record.body = .dwell n k) :
    releaseMember a s = (s.unheld a h).modAxis a fun x => { x with st := .dwell } := by
  simp only [releaseMember, hheld, hbody]
  rfl

theorem releaseMember_move {m : Move} (hbody : h.record.body = .move m) : releaseMember a s = startMove a m (s.unheld a h) := by
  simp only [releaseMember, hheld, hbody]
  rfl

end

theorem State.unheld_axis (s : State) (a : Axis) (h : Held) : (s.unheld a h).axis a = unhold h (s.axis a) :=
  (State.setEntry_axis ..).trans (State.modAxis_axis_same ..)

theorem State.unheld_axis_ne (s : State) {a b : Axis} (hb : b ≠ a) (h : Held) : (s.unheld a h).axis b = s.axis b :=
  (State.setEntry_axis ..).trans (State.modAxis_axis_ne _ _ hb)

theorem State.unheld_startFault (s : State) (a : Axis) (h : Held) (m : Move) :
    startFault (s.unheld a h) a m = startFault s a m :=
  startFault_congr (by rw [State.unheld_axis]; rfl) rfl

/-- The entries a halting member fills: that of its MOVE and its fault slot. -/
theorem haltCore_unheld_entry {s : State} (hdev : s.dev ≠ .failed) {a : Axis} {h : Held} (hreq : (s.axis a).stopReq = none)
    (c : FaultCause) (id : RecId) {e : Fin 24} (he : e ≠ h.entry) (hslot : e ≠ faultSlot a) :
    (haltCore a c id (s.unheld a h)).entry e = s.entry e := by
  have hreports := haltCore_reports (s := s.unheld a h) hdev a c id
  have hactive : ((s.unheld a h).axis a).active = some (newSegment h.record h.entry) := by rw [State.unheld_axis]; rfl
  have hnone : ((s.unheld a h).axis a).held = none := by rw [State.unheld_axis]; rfl
  have hreq' : ((s.unheld a h).axis a).stopReq = none := by rw [State.unheld_axis]; exact hreq
  simp only [haltReports, activeReport, heldReport, requestReport, hactive, hnone, hreq', List.append_nil] at hreports
  rw [hreports.entry_of_not_mem (by simpa [newSegment] using ⟨he.symm, hslot.symm⟩), State.unheld, State.setEntry_entry, if_neg he]
  rfl

/-- What the release of one member does to it, and what it leaves. -/
theorem releaseMember_releases {s : State} (hdev : s.dev ≠ .failed) {a : Axis} (hholds : s.Holds a) :
    (∀ h, (s.axis a).held = some h → Released s (releaseMember a s) a h) ∧ (releaseMember a s).lines = s.lines ∧
      (releaseMember a s).groups = s.groups ∧ (releaseMember a s).dev = s.dev ∧
      ∀ b, b ≠ a → (releaseMember a s).axis b = s.axis b ∧ (releaseMember a s).entry (faultSlot b) = s.entry (faultSlot b) := by
  obtain ⟨hreq, h, hheld, hentry, hbody⟩ := hholds
  have hsame : ∀ h', (s.axis a).held = some h' → h = h' := fun h' hh => Option.some.inj (hheld.symm.trans hh)
  have hslot : ∀ b, faultSlot b ≠ h.entry := fun b => faultSlot_ne_general hentry
  have hkeeps : ∀ f, ∀ b, b ≠ a → ((s.unheld a h).modAxis a f).axis b = s.axis b ∧
      ((s.unheld a h).modAxis a f).entry (faultSlot b) = s.entry (faultSlot b) := fun f b hb =>
    ⟨(State.modAxis_axis_ne _ _ hb).trans (s.unheld_axis_ne hb h), (State.setEntry_entry ..).trans (if_neg (hslot b))⟩
  obtain ⟨n, k, hbody⟩ | ⟨m, hbody⟩ := hbody
  · rw [releaseMember_dwell hheld hbody]
    refine ⟨fun h' hh => ?_, rfl, rfl, rfl, hkeeps _⟩
    obtain rfl := hsame h' hh
    refine ⟨fun _ _ _ => by rw [State.modAxis_axis_same, State.unheld_axis], fun m hm => ?_, fun m c hm => ?_⟩
    all_goals exact AxisBody.noConfusion (hbody.symm.trans hm)
  · rw [releaseMember_move hheld hbody]
    cases hfault : startFault s a m with
    | none =>
      rw [startMove_runs ((s.unheld_startFault a h m).trans hfault)]
      refine ⟨fun h' hh => ?_, rfl, rfl, rfl, hkeeps _⟩
      obtain rfl := hsame h' hh
      refine ⟨fun n k hd => AxisBody.noConfusion (hbody.symm.trans hd), fun m' hm _ => ?_, fun m' c hm hc => ?_⟩
      · rw [State.modAxis_axis_same, State.unheld_axis, AxisBody.move.inj (hbody.symm.trans hm)]
      · rw [← AxisBody.move.inj (hbody.symm.trans hm), hfault] at hc
        exact absurd hc.symm (Option.some_ne_none _)
    | some c =>
      rw [startMove_halts ((s.unheld_startFault a h m).trans hfault)]
      have hid : ((s.unheld a h).axis a).faultId = h.record.id := by rw [State.unheld_axis]; rfl
      rw [hid]
      refine ⟨fun h' hh => ?_, haltCore_lines .., haltCore_groups .., (haltCore_rest ..).dev, fun b hb => ⟨?_, ?_⟩⟩
      · obtain rfl := hsame h' hh
        refine ⟨fun n k hd => AxisBody.noConfusion (hbody.symm.trans hd), fun m' hm hc => ?_, fun m' c' hm hc => ?_⟩
        · rw [← AxisBody.move.inj (hbody.symm.trans hm), hfault] at hc
          exact absurd hc (Option.some_ne_none _)
        · rw [← AxisBody.move.inj (hbody.symm.trans hm), hfault] at hc
          obtain rfl := Option.some.inj hc
          refine ⟨by rw [haltCore_axis_same, State.unheld_axis], _, haltCore_faultSlot (s := s.unheld a h) hdev a c h.record.id, rfl, rfl⟩
      · exact (haltCore_axis_ne hb ..).trans (s.unheld_axis_ne hb h)
      · exact haltCore_unheld_entry hdev hreq c _ (hslot b) fun heq => hb (faultSlot_injective heq)

/-! ### The release of a group -/

/-- Members released one after the other: each as it stood, and no other axis. -/
theorem foldl_releaseMember {l : List Axis} (hnodup : l.Nodup) {s : State} (hdev : s.dev ≠ .failed) (hholds : ∀ b ∈ l, s.Holds b) :
    let t := l.foldl (fun t a => releaseMember a t) s
    (∀ b ∈ l, ∀ h, (s.axis b).held = some h → Released s t b h) ∧ t.lines = s.lines ∧ t.groups = s.groups ∧ t.dev = s.dev ∧
      ∀ b, b ∉ l → t.axis b = s.axis b ∧ t.entry (faultSlot b) = s.entry (faultSlot b) := by
  induction l generalizing s with
  | nil => exact ⟨fun b hb => absurd hb List.not_mem_nil, rfl, rfl, rfl, fun b _ => ⟨rfl, rfl⟩⟩
  | cons a l ih =>
    obtain ⟨ha, hrest⟩ := List.nodup_cons.mp hnodup
    obtain ⟨hfirst, hlines, hgroups, hdev', hothers⟩ := releaseMember_releases hdev (hholds a List.mem_cons_self)
    have hne : ∀ b ∈ l, b ≠ a := fun b hb => ne_of_mem_of_not_mem hb ha
    rw [List.foldl_cons]
    generalize releaseMember a s = u at hfirst hlines hgroups hdev' hothers
    have hthen := ih hrest (s := u) (by rwa [hdev']) fun b hb => by
      have hb' := hholds b (List.mem_cons_of_mem _ hb)
      rwa [State.Holds, (hothers b (hne b hb)).1]
    obtain ⟨hreleased, hlines', hgroups', hdev'', hothers'⟩ := hthen
    refine ⟨fun b hb h hh => ?_, hlines'.trans hlines, hgroups'.trans hgroups, hdev''.trans hdev', fun b hb => ?_⟩
    · obtain rfl | hb := List.mem_cons.mp hb
      · obtain ⟨hsame, hslot⟩ := hothers' b ha
        exact (hfirst h hh).congr rfl rfl hsame hslot
      · have haxis := (hothers b (hne b hb)).1
        exact (hreleased b hb h (haxis ▸ hh)).congr haxis hlines.symm rfl rfl
    · have hba : b ≠ a := fun heq => hb (heq ▸ List.mem_cons_self)
      have hbl : b ∉ l := fun hmem => hb (List.mem_cons_of_mem _ hmem)
      exact ⟨(hothers' b hbl).1.trans (hothers b hba).1, (hothers' b hbl).2.trans (hothers b hba).2⟩

/-- The release of a group whose members all hold their records (R72). -/
theorem releaseGroup_releases {s : State} (hdev : s.dev ≠ .failed) {g : GroupIx}
    (hholds : ∀ b, setHas (s.group g).members b = true → s.Holds b) :
    (∀ b, setHas (s.group g).members b = true → ∀ h, (s.axis b).held = some h → Released s (releaseGroup g s) b h) ∧
      (∀ k, (releaseGroup g s).group k = if k = g then (s.group g).released else s.group k) ∧
      ∀ b, setHas (s.group g).members b = false → (releaseGroup g s).axis b = s.axis b := by
  have hgroup : ∀ k, (s.modGroup g Group.released).group k = if k = g then (s.group g).released else s.group k :=
    fun k => State.modGroup_group ..
  rw [releaseGroup]
  generalize hpasses : releasePasses (s.modGroup g Group.released) = passes
  have hnodup := nodup_setList (s.group g).members
  have hmem : ∀ b, b ∈ setList (s.group g).members ↔ setHas (s.group g).members b = true := fun b => mem_setList
  generalize setList (s.group g).members = l at hnodup hmem
  have hin : ∀ b ∈ l, (s.modGroup g Group.released).Holds b := fun b hb => hholds b ((hmem b).mp hb)
  have hu := foldl_releaseMember (hnodup.filter passes) (s := s.modGroup g Group.released) hdev
    fun b hb => hin b (List.mem_filter.mp hb).1
  dsimp only at hu
  generalize (l.filter passes).foldl (fun t a => releaseMember a t) (s.modGroup g Group.released) = u at hu
  obtain ⟨hreleased, hlines, hgroups, hdev', hothers⟩ := hu
  rw [inSomeOrder]
  have hperm := arrange_perm u.freeCount (l.filter fun a => ! passes a).length (l.filter fun a => ! passes a) le_rfl
  generalize arrange u.freeCount (l.filter fun a => ! passes a).length (l.filter fun a => ! passes a) = order at hperm
  generalize hv : ({ u with freeCount := u.freeCount + (l.filter fun a => ! passes a).length } : State) = v
  have hvaxis : ∀ b, v.axis b = u.axis b := fun b => by rw [← hv]; rfl
  have hventry : ∀ e, v.entry e = u.entry e := fun e => by rw [← hv]; rfl
  have hvlines : v.lines = s.lines := by rw [← hv]; exact hlines
  have hvgroups : v.groups = (s.modGroup g Group.released).groups := by rw [← hv]; exact hgroups
  have hvdev : v.dev ≠ .failed := by rw [← hv]; exact hdev' ▸ hdev
  have hfails : ∀ b, b ∈ order ↔ b ∈ l ∧ passes b = false := fun b => by
    rw [hperm.mem_iff, List.mem_filter, Bool.not_eq_true']
  have hkept : ∀ b ∈ order, v.axis b = s.axis b := fun b hb => by
    have hno : b ∉ l.filter passes := fun hyes =>
      Bool.false_ne_true (((hfails b).mp hb).2.symm.trans (List.mem_filter.mp hyes).2)
    exact (hvaxis b).trans (hothers b hno).1
  have ht := foldl_releaseMember (hperm.nodup_iff.mpr (hnodup.filter _)) hvdev fun b hb => by
    have hb' := hin b ((hfails b).mp hb).1
    rwa [State.Holds, hkept b hb]
  dsimp only at ht
  generalize order.foldl (fun t a => releaseMember a t) v = t at ht
  obtain ⟨hreleased', hlines', hgroups', -, hothers'⟩ := ht
  refine ⟨fun b hb h hh => ?_, fun k => ?_, fun b hb => ?_⟩
  · by_cases hpass : passes b = true
    · obtain ⟨haxis, hslot⟩ := hothers' b fun hno => by rw [((hfails b).mp hno).2] at hpass; exact Bool.false_ne_true hpass
      exact (hreleased b (List.mem_filter.mpr ⟨(hmem b).mpr hb, hpass⟩) h hh).congr rfl rfl (haxis.trans (hvaxis b))
        (hslot.trans (hventry _))
    · have hborder : b ∈ order := (hfails b).mpr ⟨(hmem b).mpr hb, Bool.not_eq_true _ ▸ hpass⟩
      exact (hreleased' b hborder h ((hkept b hborder).symm ▸ hh)).congr (hkept b hborder) hvlines.symm rfl rfl
  · rw [← hgroup, State.group, State.group, hgroups', hvgroups]
  · have hno : b ∉ l := fun hyes => by rw [(hmem b).mp hyes] at hb; exact Bool.false_ne_true hb.symm
    have hno' : b ∉ l.filter passes := fun hyes => hno (List.mem_filter.mp hyes).1
    exact (hothers' b fun hyes => hno ((hfails b).mp hyes).1).1.trans ((hvaxis b).trans (hothers b hno').1)

/-- The state in which the front record has arrived at its group, at an expiry, before the release. -/
def State.frontArrived (s : State) (a : Axis) (g : GroupIx) (r : AxisRecord) (e : Fin 24) : State :=
  ((s.expired a).setEntry e (.reserved (.heldSync a))).arrived a g r e

theorem State.frontArrived_axis (s : State) (a : Axis) (g : GroupIx) (r : AxisRecord) (e : Fin 24) :
    (s.frontArrived a g r e).axis a = { (s.axis a).expire with
      staging := (s.axis a).staging.tail, held := some { record := r, group := g, entry := e }, st := .waitSync } := by
  refine (State.modGroup_axis ..).trans ((State.modAxis_axis_same ..).trans ?_)
  rw [State.setEntry_axis, State.expired_axis]
  rfl

theorem State.frontArrived_axis_ne (s : State) {a b : Axis} (h : b ≠ a) (g : GroupIx) (r : AxisRecord) (e : Fin 24) :
    (s.frontArrived a g r e).axis b = s.axis b :=
  (State.modGroup_axis ..).trans ((State.modAxis_axis_ne _ _ h).trans ((State.setEntry_axis ..).trans (s.expired_axis_ne h)))

theorem State.frontArrived_group (s : State) (a : Axis) (g : GroupIx) (r : AxisRecord) (e : Fin 24) (k : GroupIx) :
    (s.frontArrived a g r e).group k = if k = g then (s.group g).arrive a else s.group k := State.modGroup_group ..

theorem State.frontArrived_lines (s : State) (a : Axis) (g : GroupIx) (r : AxisRecord) (e : Fin 24) :
    (s.frontArrived a g r e).lines = s.lines := by
  rw [State.frontArrived, State.arrived, State.modGroup_lines, State.modAxis_lines, State.setEntry_lines, State.expired,
    State.modAxis_lines]

theorem State.frontArrived_dev (s : State) (a : Axis) (g : GroupIx) (r : AxisRecord) (e : Fin 24) :
    (s.frontArrived a g r e).dev = s.dev := by
  rw [State.frontArrived, State.arrived, State.modGroup_dev, State.modAxis_dev, State.setEntry_dev, State.expired, State.modAxis_dev]

/-- The expiry at which the arrival of the front record completes its group. -/
theorem exec_expiry_releases {s : State} {a : Axis} {g : GroupIx} {r : AxisRecord} {rest : List AxisRecord} {e : Fin 24} (h : s.Ready)
    (hothers : ∀ k, k ≠ g → (s.group k).st ≠ .gathering) (hst : (s.axis a).st = .idle)
    (hin : (s.axis a).cfg.countsPerStep = 0 ∨ (s.axis a).acc.natAbs ≤ (s.axis a).cfg.followWindow)
    (hstaging : (s.axis a).staging = r :: rest) (hok : frontInvalid (s.axis a).cfg r.body = false) (hsync : r.body.sync? = some g)
    (hfree : s.freeGeneral = some e) (hgather : (s.group g).st = .gathering) (hmember : setHas (s.group g).members a = true)
    (hcomplete : setInsert (s.group g).arrived a = (s.group g).members)
    (hafter : ((releaseGroup g (s.frontArrived a g r e)).group g).st ≠ .gathering) :
    exec (.updatePeriodExpiry a) s = .next (releaseGroup g (s.frontArrived a g r e)) := by
  have hoff : (s.axis a).st ≠ .off := by rw [hst]; decide
  have hwork : expiryWork a (s.expired a) = releaseGroup g (s.frontArrived a g r e) := by
    rw [expiryWork_passes (Ready.not_failed (s := s.expired a) h) (by rw [State.expired_axis]; exact hst ▸ (by decide))
      (by rwa [State.expired_axis]), stateWork_idle (by rw [State.expired_axis]; exact hst)]
    have hlength : ((s.expired a).axis a).staging.length = rest.length + 1 := by
      rw [State.expired_axis]
      exact congrArg List.length hstaging
    rw [hlength, considerQueue_tagged (s := s.expired a) rest.length h.1 (by rw [State.expired_axis]; exact hst) (rest := rest)
      (by rw [State.expired_axis]; exact hstaging) (by rw [State.expired_axis]; exact hok) hsync,
      judgeTagged_arrives (s := s.expired a) (.inr hgather) hmember hfree, arrive_eq]
    exact if_pos hcomplete
  rw [exec_expiry hoff fun k hk => ?_, settle_expiryWork h hoff, hwork]
  have hkg : k = g := Decidable.by_contra fun hne => hothers k hne hk
  rw [hkg, hwork]
  exact hafter

theorem startFault_none_iff (s : State) (a : Axis) (m : Move) : startFault s a m = none ↔
    ¬ limitActive s a m.dir = true ∧ firstRate (s.axis a).cfg 0 m ≤ (s.axis a).cfg.jumpLimit := by
  refine ⟨fun hnone => ?_, fun hpass => startFault_none hpass.1 hpass.2⟩
  by_cases hlim : limitActive s a m.dir = true
  · exact absurd ((startFault_limited hlim).symm.trans hnone) (Option.some_ne_none _)
  · refine ⟨hlim, Nat.le_of_not_lt fun hjump => ?_⟩
    exact absurd ((startFault_jump hlim hjump).symm.trans hnone) (Option.some_ne_none _)

/-- Settles O42. -/
theorem arrivalReleasesTheGroup : Obligations.ArrivalReleasesTheGroup := by
  intro s a g r rest x first limited passes record h hothers hst hheld hreq hstaging hbody hin hfree hgather hnot hcomplete hmembers
  obtain ⟨hok, hsync⟩ := frontInvalid_of_tagged hbody
  obtain ⟨e, he⟩ := freeGeneral_of hfree
  have hgeneral := (freeGeneral_some he).1
  have hmember : ∀ b, setHas (s.group g).members b = (setHas (s.group g).arrived b || decide (b = a)) := fun b => by
    rw [← hcomplete, setHas_setInsert]
  -- what each member holds as the group releases
  have hholds : ∀ b, setHas (s.group g).members b = true → ∃ k, ((s.frontArrived a g r e).axis b).held = some k ∧
      record b = some k.record ∧ k.entry.val < 16 ∧
      ((∃ n j, k.record.body = .dwell n j) ∨ ∃ m, k.record.body = .move m) ∧
      ((s.frontArrived a g r e).axis b).stopReq = none ∧ ((s.frontArrived a g r e).axis b).cfg = (s.axis b).cfg ∧
      ((s.frontArrived a g r e).axis b).dirPin = (s.axis b).dirPin := fun b hb => by
    by_cases hba : b = a
    · subst hba
      rw [State.frontArrived_axis]
      refine ⟨_, rfl, if_pos rfl, hgeneral, ?_, hreq, rfl, rfl⟩
      obtain ⟨n, hn⟩ | ⟨m, hm, -⟩ := hbody
      · exact .inl ⟨n, _, hn⟩
      · exact .inr ⟨m, hm⟩
    · rw [State.frontArrived_axis_ne _ hba]
      have harrived : setHas (s.group g).arrived b = true := by simpa [hba] using (hmember b).symm.trans hb
      obtain ⟨hreq', k, hk, hentry, hkind⟩ := hmembers b harrived
      exact ⟨k, hk, (if_neg hba).trans (by rw [hk]; rfl), hentry, hkind, hreq', rfl, rfl⟩
  have hlines := s.frontArrived_lines a g r e
  have hgroup := s.frontArrived_group a g r e
  have hgroup' : (s.frontArrived a g r e).group g = (s.group g).arrive a := (hgroup g).trans (if_pos rfl)
  have hothers' : ∀ b, b ≠ a → (s.frontArrived a g r e).axis b = s.axis b := fun b hb => s.frontArrived_axis_ne hb g r e
  have hdev : (s.frontArrived a g r e).dev ≠ .failed := (s.frontArrived_dev a g r e).symm ▸ Ready.not_failed h
  have hexec := exec_expiry_releases h hothers hst hin hstaging hok hsync he hgather (by rw [hmember]; simp) hcomplete
  generalize s.frontArrived a g r e = u at hholds hlines hgroup hgroup' hothers' hdev hexec
  have hmembers' : (u.group g).members = (s.group g).members := by rw [hgroup']; rfl
  obtain ⟨hreleased, hgroups, hrest⟩ := releaseGroup_releases (s := u) (g := g) hdev fun b hb => by
    obtain ⟨k, hk, -, hentry, hkind, hreq', -⟩ := hholds b (hmembers' ▸ hb)
    exact ⟨hreq', k, hk, hentry, hkind⟩
  generalize releaseGroup g u = t at hexec hreleased hgroups hrest
  have hresult : (u.group g).released = if (s.group g).reusable then
      { s.group g with st := .armed, arrived := 0, count := 0, gen := (s.group g).gen + 1 } else Group.reset := by
    rw [hgroup']
    rfl
  have hg : t.group g = (u.group g).released := (hgroups g).trans (if_pos rfl)
  refine ⟨t, hexec ?_, fun b hb => ?_, fun b hb => ?_, hg.trans hresult, fun k hk => ?_⟩
  · rw [hg, hresult]
    split
    · exact GroupState.noConfusion
    · decide
  · obtain ⟨k, hk, hrecord, -, hkind, -, hcfg, hpin⟩ := hholds b hb
    have hmemberReleased := hreleased b (hmembers' ▸ hb) k hk
    have hfirst : ∀ m, firstRate (u.axis b).cfg 0 m = first b m := fun m => by
      rw [hcfg]
      cases hstart : m.startRate with
      | none => simp only [firstRate_of_none hstart, first, hstart]
      | some v => simp only [firstRate_of_some hstart, first, hstart]
    have hlimited : ∀ m : Move, limitActive u b m.dir = true ↔ limited b m := fun m => by
      rw [limitActive_congr (s := s) (by rw [hcfg]) hlines]
      exact limitActive_iff s b m.dir
    have hticks : ticksOf (u.axis b).cfg.updatePeriod = 50 * (s.axis b).cfg.updatePeriod := by rw [ticksOf_eq, hcfg]
    obtain ⟨n, j, hd⟩ | ⟨m, hm⟩ := hkind
    · have ht := hmemberReleased.dwell n j hd
      have hno : ∀ m, k.record.body ≠ .move m := fun m => by rw [hd]; exact AxisBody.noConfusion
      exact ⟨by rw [ht]; rfl, by rw [ht]; exact congrArg some hticks, k.record, hrecord,
        fun _ => ⟨_, by rw [ht]; rfl, rfl, rfl, rfl⟩, fun _ _ _ => by rw [ht], fun m hm => absurd hm (hno m),
        fun m hm => absurd hm (hno m)⟩
    · have hsame : ∀ m', k.record.body = .move m' → m = m' := fun m' hm' => AxisBody.move.inj (hm.symm.trans hm')
      have hnoDwell : ∀ n j, k.record.body ≠ .dwell n j := fun n j => by rw [hm]; exact AxisBody.noConfusion
      have hpasses : startFault u b m = none ↔ passes b m := by
        rw [startFault_none_iff, hlimited, hfirst, hcfg]
      cases hfault : startFault u b m with
      | none =>
        have ht := hmemberReleased.runs m hm hfault
        rw [AxisBlock.enterRun_eq] at ht
        have hrate : firstRate (unhold k (u.axis b)).cfg 0 m = first b m := hfirst m
        simp only [hrate] at ht
        refine ⟨by rw [ht]; rfl, by rw [ht]; exact congrArg some hticks, k.record, hrecord,
          fun _ => ⟨_, by rw [ht]; rfl, rfl, rfl, rfl⟩, fun n j hd => absurd hd (hnoDwell n j), fun m' hm' _ => ?_, fun m' hm' hfails => ?_⟩
        · obtain rfl := hsame m' hm'
          rw [ht]
          exact ⟨rfl, rfl, rfl, rfl, rfl, rfl⟩
        · obtain rfl := hsame m' hm'
          exact absurd (hpasses.mp hfault) hfails
      | some c =>
        obtain ⟨ht, f, hf, htag, hcause⟩ := hmemberReleased.halts m c hm hfault
        obtain ⟨lr, hhalted⟩ := (unhold k (u.axis b)).haltedBy_eq c
        rw [hhalted] at ht
        have hfails : ¬ passes b m := fun hyes => Option.some_ne_none c (hfault.symm.trans (hpasses.mpr hyes))
        refine ⟨by rw [ht], by rw [ht]; exact congrArg some hticks, k.record, hrecord, fun hyes => ?_,
          fun n j hd => absurd hd (hnoDwell n j), fun m' hm' hyes => ?_, fun m' hm' _ => ?_⟩
        · obtain ⟨n, j, hd⟩ | ⟨m', hm', hyes⟩ := hyes
          · exact absurd hd (hnoDwell n j)
          · obtain rfl := hsame m' hm'
            exact absurd hyes hfails
        · obtain rfl := hsame m' hm'
          exact absurd hyes hfails
        · obtain rfl := hsame m' hm'
          refine ⟨by rw [ht], by rw [ht], by rw [ht], by rw [ht], by rw [ht]; exact hpin, fun hyes => ?_, fun hno => ?_, f, hf, htag, ?_⟩
          · have hc := (startFault_limited ((hlimited m).mpr hyes)).symm.trans hfault
            rw [ht, ← hc]
            cases m.dir <;> rfl
          · have hjump := mt (fun hle => ⟨mt (hlimited m).mp hno, hle⟩) (mt (startFault_none_iff u b m).mpr (hfault ▸ Option.some_ne_none c))
            have hc := (startFault_jump (mt (hlimited m).mp hno) (Nat.lt_of_not_le hjump)).symm.trans hfault
            rw [ht, ← hc]
          · rw [ht, hcause]
  · rw [hrest b (by rw [hmembers']; exact hb), hothers' b]
    rintro rfl
    rw [hmember] at hb
    simp at hb
  · rw [hgroups, if_neg hk, hgroup, if_neg hk]

end Sys2Proof.Machine
end

section
/-! PROOFS. O35: the CONTINUE join. -/

namespace Sys2Proof.Machine
open Sys2Proof

/-! ### The MARKs at a join -/

/-- The change of an axis by a MARK at the front of its queue. -/
def AxisBlock.passes (k : AxisRecord) (x : AxisBlock) : AxisBlock :=
  { x with staging := x.staging.tail, active := none, lastRetired := some k.id }

/-- The state after a MARK has passed with a FREE entry: its report in that entry where its flag is set. -/
def State.passed (s : State) (a : Axis) (k : AxisRecord) (e : Fin 24) : State :=
  if k.report = true then (s.modAxis a (AxisBlock.passes k)).withReport e (axisReport s a .segment .ok none k.id 0 0 0 0)
  else s.modAxis a (AxisBlock.passes k)

section
variable (s : State) (a : Axis) (k : AxisRecord) (e : Fin 24)

theorem State.passed_axis : (s.passed a k e).axis a = (s.axis a).passes k := by
  unfold State.passed
  split
  · exact (State.withReport_axis ..).trans (State.modAxis_axis_same ..)
  · exact State.modAxis_axis_same ..

theorem State.passed_axis_ne {b : Axis} (h : b ≠ a) : (s.passed a k e).axis b = s.axis b := by
  unfold State.passed
  split
  · exact (State.withReport_axis ..).trans (State.modAxis_axis_ne _ _ h)
  · exact State.modAxis_axis_ne _ _ h

theorem State.passed_same : SameRest s (s.passed a k e) := by
  unfold State.passed
  split <;> rfl

theorem State.passed_groups : (s.passed a k e).groups = s.groups := by
  unfold State.passed
  split
  · rw [State.withReport_groups, State.modAxis_groups]
  · rw [State.modAxis_groups]

theorem State.passed_fetchers : (s.passed a k e).fetchers = s.fetchers := by
  unfold State.passed
  split
  · rw [State.withReport_fetchers, State.modAxis_fetchers]
  · rw [State.modAxis_fetchers]

theorem State.passed_fillQueue : (s.passed a k e).fillQueue = s.fillQueue ++ if k.report = true then [e] else [] := by
  unfold State.passed
  split
  · rw [State.withReport_fillQueue, State.modAxis_fillQueue]
  · rw [State.modAxis_fillQueue, List.append_nil]

theorem State.passed_entry (p : Fin 24) : (s.passed a k e).entry p =
    if k.report = true ∧ p = e then .filled (axisReport s a .segment .ok none k.id 0 0 0 0) else s.entry p := by
  unfold State.passed
  split
  next hreport =>
    rw [State.withReport_entry]
    simp only [hreport, true_and]
    rfl
  next hreport =>
    rw [if_neg fun hyes => hreport hyes.1]
    rfl

theorem State.passed_report (b : Axis) (c : ReportKind) (st : Status) (f : Option FaultCause) (id : RecId) (n m : Nat) (x y : Word) :
    axisReport (s.passed a k e) b c st f id n m x y = axisReport s b c st f id n m x y := by
  by_cases hb : b = a
  · subst hb
    refine axisReport_congr (State.passed_same ..).time ?_ ?_ .. <;> rw [State.passed_axis] <;> rfl
  · refine axisReport_congr (State.passed_same ..).time ?_ ?_ .. <;> rw [State.passed_axis_ne _ _ _ _ hb]

end

/-- One MARK at the front passes with the entry it takes (R37). -/
theorem passMarks_mark {s : State} {a : Axis} {k : AxisRecord} {rest : List AxisRecord} {e : Fin 24} (hdev : s.dev ≠ .failed)
    (hi : s.interp = .waiting) (hstaging : (s.axis a).staging = k :: rest) (hmark : k.body = .mark) (hfree : s.freeGeneral = some e)
    (n : Nat) : passMarks a (n + 1) s = passMarks a n (s.passed a k e) := by
  have hretires : retireActive a .ok none Segment.words (activate a k e (s.setEntry e (.reserved (.axisRecord a))))
      = s.passed a k e := by
    generalize hu : activate a k e (s.setEntry e (.reserved (.axisRecord a))) = u
    have hstate : u = (s.setEntry e (.reserved (.axisRecord a))).modAxis a
        fun x => { x with staging := x.staging.tail, active := some (newSegment k e) } := hu.symm
    have hactive : (u.axis a).active = some (newSegment k e) := by rw [hstate, State.modAxis_axis_same]
    have hpassed : u.modAxis a (AxisBlock.retires (newSegment k e))
        = (s.modAxis a (AxisBlock.passes k)).setEntry e (.reserved (.axisRecord a)) := by
      rw [hstate, State.modAxis_modAxis, State.setEntry_modAxis]
      rfl
    have hwords : (newSegment k e).words = (0, 0) := by simp only [Segment.words, newSegment, hmark]
    unfold State.passed
    split
    next hreport =>
      have hdev' : u.dev ≠ .failed := by rw [hstate]; exact hdev
      rw [retireActive_fills hactive hdev' (by simp [newSegment, hreport]), hpassed, hwords]
      refine (State.setEntry_withReport ..).trans (congrArg (State.withReport _ e) ?_)
      refine axisReport_congr (s := s) (t := u) (by rw [hstate]; rfl) ?_ ?_ .. <;> rw [hstate, State.modAxis_axis_same] <;> rfl
    next hreport =>
      have hi' : u.interp = .waiting := by rw [hstate]; exact hi
      rw [retireActive_releases hactive hi' (Bool.not_eq_true _ ▸ hreport), hpassed]
      exact (State.setEntry_setEntry ..).trans (State.setEntry_self (freeGeneral_some hfree).2)
  simp only [passMarks, hstaging, hmark, takeGeneral, hfree, Option.map_some]
  rw [hretires]

/-- One that finds no entry does not (R38). -/
theorem passMarks_none {s : State} {a : Axis} {k : AxisRecord} {rest : List AxisRecord} (hstaging : (s.axis a).staging = k :: rest)
    (hmark : k.body = .mark) (hfree : s.freeGeneral = none) (n : Nat) : passMarks a (n + 1) s = (s, true) := by
  simp only [passMarks, hstaging, hmark, takeGeneral, hfree, Option.map_none]

/-- With no MARK at the front none passes. -/
theorem passMarks_stop {s : State} {a : Axis} (h : ∀ r ∈ (s.axis a).staging.head?, r.body ≠ .mark) (n : Nat) :
    passMarks a n s = (s, false) := by
  cases n with
  | zero => rfl
  | succ n =>
    simp only [passMarks]
    cases hstaging : (s.axis a).staging with
    | nil => rfl
    | cons r rest =>
      have hr : r.body ≠ .mark := h r (by rw [hstaging]; rfl)
      dsimp only
      split
      next hbody => exact absurd hbody hr
      next => rfl

/-- From `s` to `t` MARKs at the front of the queue passed, those with a report in the entries `es`. -/
structure MarksPassed (s t : State) (a : Axis) (marks rest : List AxisRecord) (es : List (Fin 24)) : Prop where
  axis : t.axis a = { s.axis a with
    staging := rest, active := none, lastRetired := (marks.getLast?.map AxisRecord.id).or (s.axis a).lastRetired }
  axes : ∀ b, b ≠ a → t.axis b = s.axis b
  same : SameRest s t
  groups : t.groups = s.groups
  fetchers : t.fetchers = s.fetchers
  queue : t.fillQueue = s.fillQueue ++ es
  reports : List.Forall₂ (fun k p => t.entry p = .filled (axisReport s a .segment .ok none { tag := k.tag, kind := 0x05 } 0 0 0 0))
    (marks.filter AxisRecord.report) es
  free : ∀ p ∈ es, s.FreeGeneral p
  filled : ∀ p ∈ es, t.entry p ≠ .free
  entries : ∀ p, p ∉ es → t.entry p = s.entry p

/-- One MARK with a report. -/
theorem marksPassed_one {s : State} {a : Axis} {k : AxisRecord} {e : Fin 24} (hstaging : (s.axis a).staging = [k])
    (hmark : k.body = .mark) (hflag : k.report = true) (he : s.FreeGeneral e) : MarksPassed s (s.passed a k e) a [k] [] [e] := by
  have hid : k.id = { tag := k.tag, kind := 0x05 } := by rw [AxisRecord.id_eq, AxisRecord.kind, hmark]
  have hentry : (s.passed a k e).entry e = .filled (axisReport s a .segment .ok none k.id 0 0 0 0) := by
    rw [State.passed_entry, if_pos ⟨hflag, rfl⟩]
  refine ⟨?_, fun b hb => s.passed_axis_ne a k e hb, s.passed_same a k e, s.passed_groups a k e, s.passed_fetchers a k e, ?_, ?_,
    fun p hp => ?_, fun p hp => ?_, fun p hp => ?_⟩
  · rw [State.passed_axis, AxisBlock.passes, hstaging]
    rfl
  · rw [State.passed_fillQueue, if_pos hflag]
  · rw [List.filter_cons, if_pos hflag]
    exact .cons (hid ▸ hentry) .nil
  · rwa [List.mem_singleton.mp hp]
  · rw [List.mem_singleton.mp hp, hentry]
    exact Entry.noConfusion
  · rw [State.passed_entry, if_neg fun hyes => hp (List.mem_singleton.mpr hyes.2)]

/-- The MARKs at the front all pass where more entries are FREE than MARKs have a report (R37). -/
theorem passMarks_passes {marks : List AxisRecord} (hmarks : ∀ k ∈ marks, k.body = .mark) {rest : List AxisRecord}
    (hrest : ∀ r ∈ rest.head?, r.body ≠ .mark) {a : Axis} {s : State} (hdev : s.dev ≠ .failed) (hi : s.interp = .waiting)
    (hactive : (s.axis a).active = none) (hstaging : (s.axis a).staging = marks ++ rest) {free : List (Fin 24)}
    (hnodup : free.Nodup) (hfree : ∀ e ∈ free, s.FreeGeneral e) (hmore : (marks.filter AxisRecord.report).length < free.length)
    (n : Nat) : ∃ t es, passMarks a (marks.length + n) s = (t, false) ∧ MarksPassed s t a marks rest es := by
  induction marks generalizing s free with
  | nil =>
    refine ⟨s, [], passMarks_stop (hstaging ▸ hrest) _, ?_, fun _ _ => rfl, rfl, rfl, rfl, (List.append_nil _).symm, .nil,
      fun p hp => absurd hp List.not_mem_nil, fun p hp => absurd hp List.not_mem_nil, fun _ _ => rfl⟩
    rw [← hactive, ← List.nil_append rest, ← hstaging]
    rfl
  | cons k marks ih =>
    have hmark := hmarks k List.mem_cons_self
    obtain ⟨p, hp⟩ := List.exists_mem_of_length_pos (Nat.zero_lt_of_lt hmore)
    obtain ⟨e, he⟩ := freeGeneral_of ⟨p, hfree p hp⟩
    have hgeneral := freeGeneral_some he
    have hsame := s.passed_same a k e
    have hreport : ∀ r, axisReport (s.passed a k e) a .segment .ok none r 0 0 0 0 = axisReport s a .segment .ok none r 0 0 0 0 :=
      fun r => s.passed_report a k e a .segment .ok none r 0 0 0 0
    have hpasses : passMarks a ((k :: marks).length + n) s = passMarks a (marks.length + n) (s.passed a k e) := by
      rw [List.length_cons, Nat.add_right_comm, passMarks_mark hdev hi hstaging hmark he]
    have hfreed : ∀ q, (s.passed a k e).FreeGeneral q ↔ s.FreeGeneral q ∧ ¬ (k.report = true ∧ q = e) := fun q => by
      rw [State.FreeGeneral, State.passed_entry]
      split
      next hyes => simp [hyes]
      next hno => simp only [hno, not_false_eq_true, and_true]; rfl
    obtain ⟨free', hnodup', hfree', hmore'⟩ : ∃ free' : List (Fin 24), free'.Nodup ∧ (∀ q ∈ free', (s.passed a k e).FreeGeneral q) ∧
        (marks.filter AxisRecord.report).length < free'.length := by
      by_cases hk : k.report = true
      · refine ⟨free.erase e, hnodup.erase e, fun q hq => ?_, ?_⟩
        · obtain ⟨hne, hmem⟩ := hnodup.mem_erase_iff.mp hq
          exact (hfreed q).mpr ⟨hfree q hmem, fun hyes => hne hyes.2⟩
        · rw [List.filter_cons, if_pos hk, List.length_cons] at hmore
          rw [List.length_erase]
          split <;> omega
      · refine ⟨free, hnodup, fun q hq => (hfreed q).mpr ⟨hfree q hq, fun hyes => hk hyes.1⟩, ?_⟩
        rwa [List.filter_cons, if_neg hk] at hmore
    obtain ⟨t, es, hpass, hpassed⟩ := ih (fun r hr => hmarks r (List.mem_cons_of_mem _ hr)) (s := s.passed a k e)
      (by rwa [hsame.dev]) (hsame.interp.trans hi) (by rw [State.passed_axis]; rfl)
      (by rw [State.passed_axis, AxisBlock.passes, hstaging]; rfl) hnodup' hfree' hmore'
    have hlast : (marks.getLast?.map AxisRecord.id).or (some k.id)
        = ((k :: marks).getLast?.map AxisRecord.id).or (s.axis a).lastRetired := by
      rw [List.getLast?_cons]
      cases marks.getLast? <;> rfl
    have haxis : t.axis a = { s.axis a with
        staging := rest, active := none, lastRetired := ((k :: marks).getLast?.map AxisRecord.id).or (s.axis a).lastRetired } := by
      rw [hpassed.axis, State.passed_axis, ← hlast]
      rfl
    have hqueue := hpassed.queue
    rw [State.passed_fillQueue, List.append_assoc] at hqueue
    have hkept : k.report = true → t.entry e = .filled (axisReport s a .segment .ok none k.id 0 0 0 0) := fun hk => by
      rw [hpassed.entries e fun hmem => ((hfreed e).mp (hpassed.free e hmem)).2 ⟨hk, rfl⟩, State.passed_entry, if_pos ⟨hk, rfl⟩]
    refine ⟨t, (if k.report = true then [e] else []) ++ es, hpasses.trans hpass, haxis,
      fun b hb => (hpassed.axes b hb).trans (s.passed_axis_ne a k e hb), hsame.trans hpassed.same,
      hpassed.groups.trans (s.passed_groups a k e), hpassed.fetchers.trans (s.passed_fetchers a k e), hqueue, ?_, fun q hq => ?_, fun q hq => ?_, fun q hq => ?_⟩
    · have hthen := hpassed.reports
      simp only [hreport] at hthen
      by_cases hk : k.report = true
      · rw [List.filter_cons, if_pos hk, if_pos hk]
        have hid : k.id = { tag := k.tag, kind := 0x05 } := by rw [AxisRecord.id_eq, AxisRecord.kind, hmark]
        refine .cons ?_ hthen
        exact hid ▸ hkept hk
      · rw [List.filter_cons, if_neg hk, if_neg hk]
        exact hthen
    · obtain hq | hq := List.mem_append.mp hq
      · split at hq
        · rw [List.mem_singleton.mp hq]
          exact hgeneral
        · exact absurd hq List.not_mem_nil
      · exact ((hfreed q).mp (hpassed.free q hq)).1
    · obtain hq | hq := List.mem_append.mp hq
      · split at hq
        next hk =>
          rw [List.mem_singleton.mp hq, hkept hk]
          exact Entry.noConfusion
        next => exact absurd hq List.not_mem_nil
      · exact hpassed.filled q hq
    · obtain ⟨hno, hrest'⟩ := not_or.mp (mt List.mem_append.mpr hq)
      rw [hpassed.entries q hrest', State.passed_entry, if_neg fun hyes => hno (by rw [if_pos hyes.1, hyes.2]; exact List.mem_singleton.mpr rfl)]

/-! ### The end of the MOVE before the join -/

/-- From `s` to `t`, at an expiry, the MOVE of segment `g` retired OK, MARKs behind it passed with the entries `es`, and `staging` is
left, the last record retired being `last`. -/
structure MoveEnded (s t : State) (a : Axis) (g : Segment) (done : Report) (staging : List AxisRecord) (last : RecId)
    (es : List (Fin 24)) : Prop where
  axis : t.axis a = { s.axis a with
    timer := some (50 * (s.axis a).cfg.updatePeriod), setupMark := false, active := none, lastRetired := some last, staging := staging }
  axes : ∀ b, b ≠ a → t.axis b = s.axis b
  same : SameRest s t
  groups : t.groups = s.groups
  fetchers : t.fetchers = s.fetchers
  queue : t.fillQueue = s.fillQueue ++ (if g.record.report then [g.entry] else []) ++ es
  ended : g.record.report = true → t.entry g.entry = .filled done
  unused : g.record.report = false → g.entry ∉ es → t.entry g.entry = .free
  entries : ∀ p, p ∉ es → p ≠ g.entry → t.entry p = s.entry p

theorem moveEnded {s : State} {a : Axis} {g : Segment} (h : s.Ready) (hactive : (s.axis a).active = some g) (w : Word) :
    MoveEnded s (retireActive a .ok none (fun _ => (w, 0)) (s.expired a)) a g
      (axisReport s a .segment .ok none g.record.id 0 0 w 0) (s.axis a).staging g.record.id [] := by
  have hactive' : ((s.expired a).axis a).active = some g := by rw [State.expired_axis]; exact hactive
  have haxis : ((s.expired a).modAxis a (AxisBlock.retires g)).axis a = { s.axis a with
      timer := some (50 * (s.axis a).cfg.updatePeriod), setupMark := false, active := none, lastRetired := some g.record.id } := by
    rw [State.modAxis_axis_same, State.expired_axis, AxisBlock.expire_eq]
    rfl
  have haxes : ∀ b, b ≠ a → ((s.expired a).modAxis a (AxisBlock.retires g)).axis b = s.axis b := fun b hb =>
    (State.modAxis_axis_ne _ _ hb).trans (s.expired_axis_ne hb)
  have hsame : SameRest s ((s.expired a).modAxis a (AxisBlock.retires g)) := SameRest.trans (t := s.expired a) rfl rfl
  have hgroups : ((s.expired a).modAxis a (AxisBlock.retires g)).groups = s.groups := by
    rw [State.modAxis_groups, State.expired, State.modAxis_groups]
  have hfetchers : ((s.expired a).modAxis a (AxisBlock.retires g)).fetchers = s.fetchers := by
    rw [State.modAxis_fetchers, State.expired, State.modAxis_fetchers]
  have hqueue : ((s.expired a).modAxis a (AxisBlock.retires g)).fillQueue = s.fillQueue := by
    rw [State.modAxis_fillQueue, State.expired, State.modAxis_fillQueue]
  have hentry : ∀ p, ((s.expired a).modAxis a (AxisBlock.retires g)).entry p = s.entry p := fun p => by
    rw [State.modAxis_entry, State.expired, State.modAxis_entry]
  have hfills := fun hreport => retireActive_fills hactive' (Ready.not_failed (s := s.expired a) h) (st := .ok) hreport none fun _ => (w, 0)
  have hreleases := fun hreport => retireActive_releases hactive' h.2 hreport none fun _ => (w, 0)
  simp only [axisReport_expired] at hfills
  generalize (s.expired a).modAxis a (AxisBlock.retires g) = v at haxis haxes hsame hgroups hfetchers hqueue hentry hfills hreleases
  cases hreport : g.record.report with
  | true =>
    rw [hfills (by rw [hreport]; rfl)]
    refine ⟨haxis, haxes, hsame.trans rfl, hgroups, hfetchers, ?_, fun _ => State.withReport_entry_same .., fun hno => ?_, fun p _ hp => ?_⟩
    · rw [hreport, if_pos rfl, List.append_nil, State.withReport_fillQueue, hqueue]
    · exact absurd (hreport.symm.trans hno) Bool.true_eq_false.mp
    · rw [State.withReport_entry, if_neg hp, hentry]
  | false =>
    rw [hreleases hreport]
    refine ⟨haxis, haxes, hsame.trans rfl, hgroups, hfetchers, ?_, fun hyes => ?_, fun _ _ => State.setEntry_entry_same .., fun p _ hp => ?_⟩
    · rw [hreport, if_neg Bool.false_ne_true, List.append_nil, List.append_nil]
      exact hqueue
    · exact absurd (hreport.symm.trans hyes) Bool.false_ne_true
    · rw [State.setEntry_entry, if_neg hp, hentry]

section
variable {s t : State} {a : Axis} {g : Segment} {done : Report} {staging : List AxisRecord} {last : RecId} {es : List (Fin 24)}

/-- MARKs that pass behind the ended MOVE. -/
theorem MoveEnded.passes {u : State} {marks : List AxisRecord} (h : MoveEnded s t a g done (marks ++ staging) last [])
    (k : MarksPassed t u a marks staging es) :
    MoveEnded s u a g done staging ((marks.getLast?.map AxisRecord.id).getD last) es := by
  have hended : g.record.report = true → g.entry ∉ es := fun hreport hmem => by
    have hfree := (k.free _ hmem).2
    rw [h.ended hreport] at hfree
    exact Entry.noConfusion hfree
  refine ⟨?_, fun b hb => (k.axes b hb).trans (h.axes b hb), h.same.trans k.same, k.groups.trans h.groups, k.fetchers.trans h.fetchers,
    ?_, fun hreport => (k.entries _ (hended hreport)).trans (h.ended hreport),
    fun hreport hno => (k.entries _ hno).trans (h.unused hreport List.not_mem_nil),
    fun p hp hne => (k.entries p hp).trans (h.entries p List.not_mem_nil hne)⟩
  · rw [k.axis, h.axis]
    cases marks.getLast? <;> rfl
  · rw [k.queue, h.queue, List.append_nil]

/-- The entries FREE once the MOVE has ended. -/
theorem MoveEnded.freeGeneral_iff (h : MoveEnded s t a g done staging last []) (hgeneral : g.entry.val < 16)
    (hheld : s.entry g.entry ≠ .free) (p : Fin 24) :
    t.FreeGeneral p ↔ s.FreeGeneral p ∨ p = g.entry ∧ g.record.report = false := by
  by_cases hp : p = g.entry
  · subst hp
    cases hreport : g.record.report with
    | true =>
      have hfilled := h.ended hreport
      simp [State.FreeGeneral, hfilled, hheld]
    | false =>
      have hfree := h.unused hreport List.not_mem_nil
      simp [State.FreeGeneral, hfree, hgeneral]
  · simp only [State.FreeGeneral, h.entries p List.not_mem_nil hp, hp, false_and, or_false]

/-- A halt at the join: the FAULT report follows those of the ended MOVE and the MARKs. -/
theorem MoveEnded.halts (h : MoveEnded s t a g done staging last es) (hs : s.Ready) (hst : (s.axis a).st = .run)
    (hheld : (s.axis a).held = none) (hrequest : (s.axis a).stopReq = none) (hgeneral : g.entry.val < 16) (c : FaultCause) (id : RecId) :
    ((haltAxis a c id t).axis a).st = .halted ∧ ((haltAxis a c id t).axis a).cause = some c ∧ ((haltAxis a c id t).axis a).rate = 0 ∧
      ((haltAxis a c id t).axis a).frac = 0 ∧ ((haltAxis a c id t).axis a).staging = [] ∧ ((haltAxis a c id t).axis a).active = none ∧
      ((haltAxis a c id t).axis a).cmdPos = (s.axis a).cmdPos ∧ ((haltAxis a c id t).axis a).encPos = (s.axis a).encPos ∧
      (haltAxis a c id t).fillQueue = s.fillQueue ++ ((if g.record.report then [g.entry] else []) ++ es) ++ [faultSlot a] ∧
      (∃ q, (haltAxis a c id t).entry (faultSlot a) = .filled q ∧ q.kind = .fault ∧ q.cause = some c ∧ q.tag = id.tag ∧
        q.flushed = staging.length ∧ q.ringHead = (s.fetcher (axisRing a)).head) ∧
      (g.record.report = true → (haltAxis a c id t).entry g.entry = .filled done) ∧
      (∀ b, b ≠ a → (haltAxis a c id t).axis b = s.axis b) ∧ (haltAxis a c id t).groups = s.groups := by
  have hdev : t.dev ≠ .failed := by
    rw [h.same.dev]
    exact Ready.not_failed hs
  rw [haltAxis_of_not_waitSync (.inl (by rw [h.axis]; exact hst ▸ AxisState.noConfusion))]
  have hself := haltCore_axis_same a c id t
  obtain ⟨lr, hhalted⟩ := (t.axis a).haltedBy_eq c
  rw [hhalted, h.axis] at hself
  have hreports := haltCore_reports_bare hdev (by rw [h.axis]) (by rw [h.axis]; exact hheld) (by rw [h.axis]; exact hrequest) c id
  refine ⟨by rw [hself], by rw [hself], by rw [hself], by rw [hself], by rw [hself], by rw [hself], by rw [hself], by rw [hself], ?_,
    ⟨_, haltCore_faultSlot hdev a c id, rfl, rfl, rfl, ?_, ?_⟩, fun hreport => ?_, fun b hb => (haltCore_axis_ne hb ..).trans (h.axes b hb),
    (haltCore_groups ..).trans h.groups⟩
  · rw [hreports.queue, h.queue, List.append_assoc, List.append_assoc, List.append_assoc, List.append_assoc]
    rfl
  · change (t.axis a).staging.length = _
    rw [h.axis]
  · change (t.fetcher (axisRing a)).head = _
    rw [State.fetcher, h.fetchers]
    rfl
  · rw [hreports.entry_of_not_mem (by simpa using faultSlot_ne_general hgeneral)]
    exact h.ended hreport

end

/-! ### The judgement of the join -/

section
variable {s : State} {a : Axis} {r : AxisRecord} {rest : List AxisRecord} (hstaging : (s.axis a).staging = r :: rest) (ended : RecId)
include hstaging

theorem judgeJoin_invalid (h : frontInvalid (s.axis a).cfg r.body = true) : judgeJoin a ended s = haltAxis a .recordInvalid r.id s := by
  simp only [judgeJoin, hstaging, h, if_true]

variable (hok : frontInvalid (s.axis a).cfg r.body = false)
include hok

theorem judgeJoin_sequence (h : joinSequence (s.axis a).dir r.body = true) : judgeJoin a ended s = haltAxis a .sequence r.id s := by
  simp only [judgeJoin, hstaging, hok, h, if_true, if_neg Bool.false_ne_true]

variable {m : Move} (hbody : r.body = .move m) (hfollows : joinSequence (s.axis a).dir (.move m) = false)
include hbody hfollows

theorem judgeJoin_noEntry (h : s.freeGeneral = none) : judgeJoin a ended s = haltAxis a .underrun r.id s := by
  rw [hbody] at hok
  simp only [judgeJoin, hstaging, hbody, hok, hfollows, if_neg Bool.false_ne_true, takeGeneral, h, Option.map_none]

theorem judgeJoin_entry {e : Fin 24} (h : s.freeGeneral = some e) : judgeJoin a ended s =
    if joinJump (s.axis a) m = true then haltAxis a .rateJump r.id s
    else (activate a r e (s.setEntry e (.reserved (.axisRecord a)))).modAxis a (AxisBlock.joinRun m) := by
  rw [hbody] at hok
  simp only [judgeJoin, hstaging, hbody, hok, hfollows, if_neg Bool.false_ne_true, takeGeneral, h, Option.map_some]

end

theorem judgeJoin_empty {s : State} {a : Axis} (h : (s.axis a).staging = []) (ended : RecId) :
    judgeJoin a ended s = haltAxis a .underrun ended s := by
  simp only [judgeJoin, h]

/-- A MARK that finds no entry fails the join (R38). -/
theorem continueJoin_fails {s t : State} {a : Axis} (h : passMarks a (s.axis a).staging.length s = (t, true)) (ended : RecId) :
    continueJoin a ended s = haltAxis a .underrun (((t.axis a).staging.head?.map AxisRecord.id).getD ended) t := by
  rw [continueJoin, h]
  exact if_pos rfl

theorem continueJoin_judges {s t : State} {a : Axis} (h : passMarks a (s.axis a).staging.length s = (t, false)) (ended : RecId) :
    continueJoin a ended s = judgeJoin a ended t := by
  rw [continueJoin, h]
  exact if_neg Bool.false_ne_true

theorem rateGap_eq (x y : Nat) : rateGap x y = ((x : Int) - y).natAbs := by
  rw [rateGap]
  omega

/-- A MOVE that takes over at a join, its period opened from the kept rate and fraction (R39). -/
theorem AxisBlock.joinRun_eq {x : AxisBlock} (h : x.setupMark = false) (m : Move) : x.joinRun m =
    let rate := firstRate x.cfg x.rate m
    let steps := min ((x.frac + rate) / 65536) m.steps
    { x with
      rate := rate, frac := (x.frac + rate) % 65536, remaining := m.steps - steps, firstMark := false, periodSteps := steps
      schedule := x.schedule ++ (List.range steps).map fun k => k * (50 * x.cfg.updatePeriod) / steps } := by
  simp only [AxisBlock.joinRun, AxisBlock.openPeriod, AxisBlock.handOver, AxisBlock.nextRate, AxisBlock.pulseTimes, if_true, h,
    ticksOf_eq, Bool.false_eq_true, if_false, Nat.add_zero]

/-- The change of an axis by a MOVE that joins with an entry. -/
def AxisBlock.joins (r : AxisRecord) (e : Fin 24) (m : Move) (x : AxisBlock) : AxisBlock :=
  AxisBlock.joinRun m { x with staging := x.staging.tail, active := some (newSegment r e) }

/-- The state after a MOVE has joined with an entry. -/
def State.joined (s : State) (a : Axis) (r : AxisRecord) (e : Fin 24) (m : Move) : State :=
  (s.setEntry e (.reserved (.axisRecord a))).modAxis a (AxisBlock.joins r e m)

theorem State.joined_eq (s : State) (a : Axis) (r : AxisRecord) (e : Fin 24) (m : Move) :
    (activate a r e (s.setEntry e (.reserved (.axisRecord a)))).modAxis a (AxisBlock.joinRun m) = s.joined a r e m :=
  State.modAxis_modAxis ..

theorem State.joined_axis (s : State) (a : Axis) (r : AxisRecord) (e : Fin 24) (m : Move) :
    (s.joined a r e m).axis a = (s.axis a).joins r e m := by
  rw [State.joined, State.modAxis_axis_same, State.setEntry_axis]

theorem State.joined_axis_ne (s : State) {a b : Axis} (h : b ≠ a) (r : AxisRecord) (e : Fin 24) (m : Move) :
    (s.joined a r e m).axis b = s.axis b := by
  rw [State.joined, State.modAxis_axis_ne _ _ h, State.setEntry_axis]

theorem State.joined_same (s : State) (a : Axis) (r : AxisRecord) (e : Fin 24) (m : Move) : SameRest s (s.joined a r e m) := rfl

theorem State.joined_keeps (s : State) (a : Axis) (r : AxisRecord) (e : Fin 24) (m : Move) :
    (s.joined a r e m).groups = s.groups ∧ (s.joined a r e m).fetchers = s.fetchers ∧ (s.joined a r e m).fillQueue = s.fillQueue := by
  rw [State.joined, State.modAxis_groups, State.modAxis_fetchers, State.modAxis_fillQueue, State.setEntry_groups,
    State.setEntry_fetchers, State.setEntry_fillQueue]
  exact ⟨rfl, rfl, rfl⟩

theorem State.joined_entry (s : State) (a : Axis) (r : AxisRecord) (e : Fin 24) (m : Move) (p : Fin 24) :
    (s.joined a r e m).entry p = if p = e then .reserved (.axisRecord a) else s.entry p := by
  rw [State.joined, State.modAxis_entry, State.setEntry_entry]

theorem startRateOk_iff (c : AxisConfig) (m : Move) :
    startRateOk c m = true ↔ ∀ v, m.startRate = some v → c.creepRate ≤ v ∧ v ≤ c.maxRate := by
  cases hstart : m.startRate with
  | none => simp [startRateOk, hstart]
  | some v => simp [startRateOk, hstart]

theorem joinJump_iff (x : AxisBlock) (m : Move) :
    joinJump x m = true ↔ ∃ v : Nat, m.startRate = some v ∧ x.cfg.jumpLimit < ((v : Int) - x.rate).natAbs := by
  cases hstart : m.startRate with
  | none => simp [joinJump, hstart]
  | some v => simp [joinJump, hstart, rateGap_eq]

theorem joinSequence_move (d : Dir) (m : Move) : joinSequence d (.move m) = false ↔ m.sync = none ∧ m.dir = d := by
  simp [joinSequence]

/-- Settles O35. -/
theorem continueJoinTakesOverOrHalts : Obligations.ContinueJoinTakesOverOrHalts := by
  intro s a g m x c done mark inRange joins jumps rate steps runs halts fills h hnone hst hactive hbody hexit hremaining hdir hheld
    hrequest hgeneral hreserved hin
  have hexec := exec_expiry_continueExit h hnone hst hactive hbody hremaining hin hexit
  have hdone : axisReport s a .segment .ok none g.record.id 0 0 (BitVec.ofNat 32 m.steps) 0 = done := by
    rw [axisReport, AxisRecord.id_eq, AxisRecord.kind_move hbody]
  have hended := moveEnded h hactive (BitVec.ofNat 32 m.steps)
  rw [hdone] at hended
  generalize retireActive a .ok none (fun _ => (BitVec.ofNat 32 m.steps, 0)) (s.expired a) = u at hexec hended
  have hudev : u.dev ≠ .failed := by
    rw [hended.same.dev]
    exact Ready.not_failed h
  have hucfg : (u.axis a).cfg = c := by rw [hended.axis]
  have hfree := hended.freeGeneral_iff hgeneral hreserved
  -- a halt behind MARKs that passed
  have hhalts : ∀ {t staging last es} (cause : FaultCause) (id : RecId), MoveEnded s t a g done staging last es →
      exec (.updatePeriodExpiry a) s = .next (haltAxis a cause id t) → halts cause id.tag staging.length (fills ++ es) :=
    fun cause id ht hexec => ⟨_, hexec, ht.halts h hst hheld hrequest hgeneral cause id⟩
  have hfront : ∀ {cause id r rest}, x.staging = r :: rest → r.body ≠ .mark → judgeJoin a g.record.id u = haltAxis a cause id u →
      halts cause id.tag (rest.length + 1) fills := fun {cause id r rest} hstaging hmark hjudge => by
    have hfirst := hhalts cause id hended (hexec.trans (congrArg _ ((continueJoin_judges (passMarks_stop (fun r' hr' => by
      rw [hended.axis, show (s.axis a).staging = r :: rest from hstaging] at hr'
      rwa [← Option.some.inj hr']) _) _).trans hjudge)))
    rw [show (s.axis a).staging = r :: rest from hstaging, List.append_nil] at hfirst
    exact hfirst
  have hvalid : ∀ n, inRange n → frontInvalid c (.move n) = false := fun n hn => by
    rw [frontInvalid, (startRateOk_iff c n).mpr hn]
    rfl
  have hfollows : ∀ n, joins n → joinSequence (u.axis a).dir (.move n) = false := fun n hn => by
    rw [hended.axis]
    exact (joinSequence_move _ n).mpr ⟨hn.2.1, hn.2.2.trans hdir.symm⟩
  have hustaging : ∀ l, x.staging = l → (u.axis a).staging = l := fun l hl => by
    rw [hended.axis]
    exact hl
  refine ⟨fun marks r rest n free hstaging hmarks hr hjoins hnojump hnodup hfrees hmore => ?_, fun hempty => ?_,
    fun r rest hstaging => ⟨fun hbad => ?_, fun hseq => ?_, fun hreport hfull hkind => ?_, fun n hr hjoins hjumps hhave => ?_⟩,
    fun k hstaging hmark hflag hreport hhave => ?_⟩
  · have hmove : r.body ≠ .mark := by rw [hr]; exact AxisBody.noConfusion
    have hnostop : ∀ r' ∈ (r :: rest).head?, r'.body ≠ .mark := fun r' hr' => Option.some.inj hr' ▸ hmove
    have hufree : ∀ e ∈ free, u.FreeGeneral e := fun e he => (hfree e).mpr (hfrees e he)
    obtain ⟨t, es, hpass, hpassed⟩ := passMarks_passes hmarks hnostop hudev (hended.same.interp.trans h.2) (by rw [hended.axis])
      (hustaging _ hstaging) hnodup hufree hmore (r :: rest).length
    rw [← List.length_append, ← hustaging _ hstaging] at hpass
    have hbehind : MoveEnded s u a g done (marks ++ r :: rest) g.record.id [] := by
      rwa [show (s.axis a).staging = marks ++ r :: rest from hstaging] at hended
    have ht := hbehind.passes hpassed
    -- the entry the MOVE takes
    obtain ⟨e', he', hleft⟩ : ∃ e ∈ free, e ∉ es := by
      by_contra hall
      push Not at hall
      have hle := (hnodup.subperm hall).length_le
      rw [← hpassed.reports.length_eq] at hle
      omega
    obtain ⟨e, he⟩ := freeGeneral_of (s := t) ⟨e', (hufree e' he').1, (hpassed.entries e' hleft).trans (hufree e' he').2⟩
    have hgeneral' := freeGeneral_some he
    have hees : e ∉ es := fun hmem => hpassed.filled e hmem hgeneral'.2
    have htstaging : (t.axis a).staging = r :: rest := by rw [ht.axis]
    have hexec' : exec (.updatePeriodExpiry a) s = .next (t.joined a r e n) := by
      rw [hexec, continueJoin_judges hpass, judgeJoin_entry htstaging _ ?_ hr ?_ he, if_neg, State.joined_eq]
      · rw [ht.axis]
        exact mt (joinJump_iff ..).mp hnojump
      · rw [ht.axis, hr]
        exact hvalid n hjoins.1
      · rw [ht.axis]
        exact (joinSequence_move _ n).mpr ⟨hjoins.2.1, hjoins.2.2.trans hdir.symm⟩
    obtain ⟨hgroups, hfetchers, hqueue⟩ := t.joined_keeps a r e n
    have hentry := t.joined_entry a r e n
    have hstays : ∀ {p q}, t.entry p = .filled q → (t.joined a r e n).entry p = .filled q := fun {p q} hp => by
      rw [hentry, if_neg]
      · exact hp
      · rintro rfl
        rw [hgeneral'.2] at hp
        exact Entry.noConfusion hp
    have hmarkReport : ∀ k : AxisRecord, axisReport u a .segment .ok none { tag := k.tag, kind := 0x05 } 0 0 0 0 = mark k := fun k =>
      axisReport_congr (s := s) (t := u) hended.same.time (by rw [hended.axis]) (by rw [hended.axis]) ..
    refine ⟨_, e, es, hexec', ht.same.trans (t.joined_same a r e n), ?_, fun b hb => (t.joined_axis_ne hb r e n).trans (ht.axes b hb),
      hgroups.trans ht.groups, hfetchers.trans ht.fetchers, (hentry e).trans (if_pos rfl), hqueue.trans ht.queue,
      fun hreport => hstays (ht.ended hreport), hpassed.reports.imp fun k p hk => hstays (hmarkReport k ▸ hk), fun p hp => ?_,
      fun p hp hne => ?_, fun hreport hno => ?_⟩
    · have hrate : firstRate c x.rate n = rate n := by
        cases hstart : n.startRate with
        | none => simp only [firstRate, clampRate, rate, hstart, Option.getD_none]
        | some v => simp only [firstRate, rate, hstart, Option.getD_some]
      have hlast : (marks.getLast?.map AxisRecord.id).getD g.record.id
          = (marks.getLast?.map AxisRecord.id).getD { tag := g.record.tag, kind := 0x01 } := by
        rw [AxisRecord.id_eq g.record, AxisRecord.kind_move hbody]
      rw [State.joined_axis, AxisBlock.joins, ht.axis, hlast, AxisBlock.joinRun_eq (by rfl)]
      simp only [show firstRate (s.axis a).cfg (s.axis a).rate n = rate n from hrate]
      rfl
    · refine (hfree p).mp ?_
      obtain rfl | hp := List.mem_cons.mp hp
      · exact ⟨hgeneral'.1, (hpassed.entries p hees).symm.trans hgeneral'.2⟩
      · exact hpassed.free p hp
    · obtain ⟨hpe, hpes⟩ := not_or.mp (mt List.mem_cons.mpr hp)
      rw [hentry, if_neg hpe, ht.entries p hpes hne]
    · obtain ⟨hge, hges⟩ := not_or.mp (mt List.mem_cons.mpr hno)
      rw [hentry, if_neg hge, ht.unused hreport hges]
  · have hfirst := hhalts .underrun g.record.id hended (hexec.trans (congrArg _ ((continueJoin_judges (passMarks_stop (fun r' hr' => by
      rw [hustaging [] hempty] at hr'
      exact absurd hr' (Option.not_mem_none r')) _) _).trans (judgeJoin_empty (hustaging [] hempty) _))))
    rw [show (s.axis a).staging = [] from hempty, List.append_nil] at hfirst
    exact hfirst
  · refine hfront hstaging ?_ (judgeJoin_invalid (hustaging _ hstaging) _ ?_)
    · obtain ⟨k, hk⟩ | ⟨n, hn, -⟩ := hbad
      · rw [hk]; exact AxisBody.noConfusion
      · rw [hn]; exact AxisBody.noConfusion
    · rw [hucfg]
      obtain ⟨k, hk⟩ | ⟨n, hn, hout⟩ := hbad
      · rw [hk]; rfl
      · rw [hn, frontInvalid, Bool.not_eq_true', ← Bool.not_eq_true]
        exact mt (startRateOk_iff c n).mp hout
  · have hparts : r.body ≠ .mark ∧ frontInvalid c r.body = false ∧ joinSequence (u.axis a).dir r.body = true := by
      have hudir : (u.axis a).dir = m.dir := by rw [hended.axis]; exact hdir
      obtain ⟨n, k, hb⟩ | ⟨w, hb⟩ | ⟨p, q, hb⟩ | ⟨n, hb, hn, hno⟩ := hseq
      · rw [hb]; exact ⟨AxisBody.noConfusion, rfl, rfl⟩
      · rw [hb]; exact ⟨AxisBody.noConfusion, rfl, rfl⟩
      · rw [hb]; exact ⟨AxisBody.noConfusion, rfl, rfl⟩
      · rw [hb]
        refine ⟨AxisBody.noConfusion, hvalid n hn, ?_⟩
        rw [← Bool.not_eq_false, joinSequence_move, hudir]
        exact fun hyes => hno.elim (fun hs => hs hyes.1) fun hd => hd hyes.2
    obtain ⟨hmark, hok, hseq⟩ := hparts
    exact hfront hstaging hmark (judgeJoin_sequence (hustaging _ hstaging) _ (by rw [hucfg]; exact hok) hseq)
  · have hnoFree : u.freeGeneral = none := freeGeneral_none fun e he => by
      obtain he | ⟨-, hno⟩ := (hfree e).mp he
      · exact hfull e he
      · exact Bool.false_ne_true (hno.symm.trans hreport)
    obtain hmark | ⟨n, hn, hjoins⟩ := hkind
    · have hfirst := hhalts .underrun r.id hended (hexec.trans (congrArg _ ((continueJoin_fails (by
        rw [hustaging _ hstaging]
        exact passMarks_none (hustaging _ hstaging) hmark hnoFree _) _).trans (by rw [hustaging _ hstaging]; rfl))))
      rw [show (s.axis a).staging = r :: rest from hstaging, List.append_nil] at hfirst
      exact hfirst
    · refine hfront hstaging (by rw [hn]; exact AxisBody.noConfusion)
        (judgeJoin_noEntry (hustaging _ hstaging) _ ?_ hn (hfollows n hjoins) hnoFree)
      rw [hucfg, hn]
      exact hvalid n hjoins.1
  · obtain ⟨e, he⟩ := freeGeneral_of (s := u) (hhave.elim (fun hno => ⟨g.entry, (hfree _).mpr (.inr ⟨rfl, hno⟩)⟩)
      fun ⟨e, he⟩ => ⟨e, (hfree e).mpr (.inl he)⟩)
    refine hfront hstaging (by rw [hr]; exact AxisBody.noConfusion)
      ((judgeJoin_entry (hustaging _ hstaging) _ ?_ hr (hfollows n hjoins) he).trans (if_pos ?_))
    · rw [hucfg, hr]
      exact hvalid n hjoins.1
    · rw [hended.axis]
      exact (joinJump_iff ..).mpr hjumps
  · obtain ⟨e', he'⟩ := hhave
    obtain ⟨e, he⟩ := freeGeneral_of ⟨e', (hfree e').mpr (.inl he')⟩
    have hfreed : s.FreeGeneral e := ((hfree e).mp (freeGeneral_some he)).elim id fun hno =>
      absurd (hno.2.symm.trans hreport) Bool.false_ne_true
    have hinterp : u.interp = .waiting := hended.same.interp.trans h.2
    have hpass : passMarks a (u.axis a).staging.length u = (u.passed a k e, false) := by
      rw [hustaging _ hstaging]
      exact passMarks_mark hudev hinterp (hustaging _ hstaging) hmark he 0
    have hstaging' : ((u.passed a k e).axis a).staging = [] := by
      rw [State.passed_axis, AxisBlock.passes, hustaging _ hstaging]
      rfl
    have hbehind : MoveEnded s u a g done ([k] ++ []) g.record.id [] := by
      rwa [show (s.axis a).staging = [k] from hstaging] at hended
    have hlast := hbehind.passes (marksPassed_one (hustaging _ hstaging) hmark hflag (freeGeneral_some he))
    have hall := hhalts .underrun g.record.id hlast (hexec.trans (congrArg _ ((continueJoin_judges hpass _).trans
      (judgeJoin_empty hstaging' _))))
    have hfills : fills ++ [e] = [g.entry, e] := by
      simp only [fills, hreport, if_true, List.cons_append, List.nil_append]
    rw [hfills] at hall
    exact ⟨e, hfreed, hall⟩

end Sys2Proof.Machine
end

section
/-! PROOFS. O60: a record that finds no entry is held, and takes a freed one or leaves it. -/

namespace Sys2Proof.Machine
open Sys2Proof

/-! ### A record in hand -/

/-- A record whose entry cannot be had is held (R153). -/
theorem judgeRecord_holds {c : CtlRecord} {s : State} (h : entryChoice c.body s = .cannot) :
    judgeRecord c s = { s with interp := .holding c } := by
  rw [judgeRecord, h]

theorem settle_of_rest {s : State} (hdev : s.dev = .online) (hlook : (lookAgain s).dev = .online) : settle s = lookAgain s := by
  rw [settle, offIfAtRest_of_ne (s := s) (by rw [hdev]; decide) (by rw [hdev]; decide),
    offIfAtRest_of_ne (by rw [hlook]; decide) (by rw [hlook]; decide)]

/-- A held record that still cannot have its entry stays in hand. -/
theorem settle_holds {c : CtlRecord} {s : State} (hdev : s.dev = .online) (hi : s.interp = .holding c) (hclaim : s.claim = none)
    (hcannot : entryChoice c.body s = .cannot) : settle s = s := by
  have hsame : ({ s with interp := .holding c } : State) = s := by rw [← hi]
  have hlook : lookAgain s = s := by
    simp only [lookAgain, hi, hclaim, hcannot, EntryChoice.isGeneral, Bool.false_eq_true, if_false]
    rw [judgeRecord_holds hcannot, hsame]
  rw [settle_of_rest hdev (by rw [hlook]; exact hdev), hlook]

theorem entryChoice_interp (b : CtlBody) (s : State) (i : Interp) : entryChoice b { s with interp := i } = entryChoice b s := by
  cases b <;> rfl

/-- A record that is delivered and finds no entry. -/
theorem deliverCommand_holds {tag : Word} {b : CtlBody} {s : State} (h : s.Ready) (hclaim : s.claim = none) (hb : b.checked = b)
    (hcannot : entryChoice b s = .cannot) : deliverCommand tag b s = { s with interp := .holding { tag := tag, body := b } } := by
  have htakes : s.takesControl = true := by rw [State.takesControl, h.1, h.2]; rfl
  rw [deliverCommand, if_pos htakes, hb, judgeRecord_holds (c := { tag := tag, body := b }) hcannot]
  exact settle_holds (s := { s with interp := .holding { tag := tag, body := b } }) h.1 rfl hclaim
    ((entryChoice_interp b s _).trans hcannot)

theorem generalChoice_cannot {s : State} (h : ∀ e, ¬ s.FreeGeneral e) : generalChoice s = .cannot := by
  rw [generalChoice, freeGeneral_none h]

/-! ### A held NOP -/

/-- A NOP in hand. -/
def nopRecord (tag : Word) : CtlRecord := { tag := tag, body := .nop }

/-- A NOP that can have a general entry is accepted with it (R160). -/
theorem judgeRecord_nop {s : State} (hdev : s.dev = .online) {e : Fin 24} (hfree : s.freeGeneral = some e) (tag : Word) :
    judgeRecord (nopRecord tag) s = ({ s with interp := .waiting } : State).withReport e (ctlReport s none tag 0x1B .ok 0 0 0 0) := by
  have hchoice : entryChoice (nopRecord tag).body s = .takes e := generalChoice_of hfree
  rw [judgeRecord_takes hchoice]
  exact completePlain_taken (s := { s with interp := .waiting }) ⟨hdev, rfl⟩ e (nopRecord tag) .ok

/-- A held NOP that looks again takes a FREE entry, or leaves it to another reserver of the instant. -/
theorem settle_nop {s : State} {tag : Word} (hdev : s.dev = .online) (hi : s.interp = .holding (nopRecord tag)) (hclaim : s.claim = none)
    {e : Fin 24} (hfree : s.freeGeneral = some e) :
    settle s = ({ s with interp := .waiting, freeCount := s.freeCount + 1 } : State).withReport e (ctlReport s none tag 0x1B .ok 0 0 0 0) ∨
      settle s = { s with freeCount := s.freeCount + 1 } := by
  have hgeneral : (entryChoice (nopRecord tag).body s).isGeneral = true := by
    have hchoice : entryChoice (nopRecord tag).body s = .takes e := generalChoice_of hfree
    rw [hchoice]
    exact decide_eq_true (freeGeneral_some hfree).1
  have hlook : lookAgain s = if Config.freeClaim s.freeCount = true
      then ({ s with interp := .waiting, freeCount := s.freeCount + 1 } : State).withReport e (ctlReport s none tag 0x1B .ok 0 0 0 0)
      else { s with freeCount := s.freeCount + 1 } := by
    have hjudge := judgeRecord_nop (s := { s with freeCount := s.freeCount + 1 }) hdev hfree tag
    have hreport : ctlReport { s with freeCount := s.freeCount + 1 } none tag 0x1B .ok 0 0 0 0 = ctlReport s none tag 0x1B .ok 0 0 0 0 :=
      ctlReport_congr (s := s) (t := { s with freeCount := s.freeCount + 1 }) rfl (fun _ hb => absurd hb.symm (Option.some_ne_none _)) ..
    rw [hreport] at hjudge
    unfold lookAgain
    split
    next hno => exact Interp.noConfusion (hi.symm.trans hno)
    next c hc =>
      obtain rfl : nopRecord tag = c := Interp.holding.inj (hi.symm.trans hc)
      split
      next e' he' => exact absurd (he'.symm.trans hclaim) (Option.some_ne_none e')
      next => exact (if_pos hgeneral).trans (if_congr Iff.rfl hjudge rfl)
  rw [settle_of_rest hdev (by rw [hlook]; split <;> exact hdev), hlook]
  split
  · exact .inl rfl
  · exact .inr rfl

/-! ### An event while a NOP is held -/

/-- With a NOP in hand an event is delivered as with none; what is held then looks again. -/
theorem eventAct_of_nop {s : State} {tag : Word} (hi : s.interp = .holding (nopRecord tag)) (l : EventLine) :
    eventAct l s = acceptAtRelease none (inSomeOrder (allAxes.flatMap fun a =>
      waitTaker l s a ++ if (s.axis a).armedFor l a then [.capture a] else []) (runTaker l) (s.reached l)) := by
  have hlatches : ∀ a, s.mayChangeLatches a = false := fun a => by
    simp only [State.mayChangeLatches, hi, nopRecord, Bool.and_false]
  have harms : ∀ a, s.interp.arms a = false := fun a => by rw [hi]; rfl
  have htakers : axisTakers l s = fun a => waitTaker l s a ++ if (s.axis a).armedFor l a then [.capture a] else [] := by
    funext a
    simp only [axisTakers, hlatches, captureTaker, harms, Bool.or_false, Bool.false_eq_true, if_false]
  rw [eventAct, htakers]
  simp only [hlatches, Bool.not_false, List.filter_true]
  rfl

theorem acceptAtRelease_of_unclaimed {s : State} (h : s.claim = none) (b : Option Axis) : acceptAtRelease b s = s := by
  unfold acceptAtRelease
  rw [h]
  cases s.interp <;> rfl

/-! ### O60 -/

section
variable {s : State} {tag : Word}

/-- The end of a report write that frees the only general entry, while a NOP is held. -/
theorem reportWrite_nop (hclaim : s.claim = none) (hdev : s.dev = .online) (hi : s.interp = .holding (nopRecord tag)) {e : Fin 24}
    {ad : Addr} {v : Block32} (hfull : ∀ e, ¬ s.FreeGeneral e) (he : e.val < 16) (hport : s.port = some (.report e ad v)) :
    ∃ t, exec (.completionWriteComplete false) s = .next t ∧
      ((t.interp = .waiting ∧ t.entry e = .filled (ctlReport s none tag 0x1B .ok 0 0 0 0) ∧ t.fillQueue = s.fillQueue ++ [e]) ∨
        (t.interp = .holding (nopRecord tag) ∧ t.entry e = .free ∧ t.fillQueue = s.fillQueue)) := by
  have hstate : countWrite (reportGone e s) = { countWrite (reportGone e s) with
      dev := .online, interp := .holding (nopRecord tag), claim := none, fillQueue := s.fillQueue } := by
    rw [countWrite_eq, reportGone, ← hclaim, ← hdev, ← hi]
    rfl
  have hentry : ∀ k, (countWrite (reportGone e s)).entry k = if k = e then .free else s.entry k := fun k => by
    rw [countWrite_eq]
    exact State.setEntry_entry ..
  have htime : (countWrite (reportGone e s)).time = s.time := by
    rw [countWrite_eq]
    rfl
  have hexec : exec (.completionWriteComplete false) s = .next (settle (countWrite (reportGone e s))) := by
    rw [exec_completionWriteComplete hport, reportEnd_of_online hdev]
  generalize countWrite (reportGone e s) = u at hstate hentry htime hexec
  have hfreed : u.FreeGeneral e := ⟨he, (hentry e).trans (if_pos rfl)⟩
  obtain ⟨k, hk⟩ := freeGeneral_of ⟨e, hfreed⟩
  obtain rfl : k = e := Decidable.by_contra fun hne => hfull k
    ⟨(freeGeneral_some hk).1, (if_neg hne).symm.trans ((hentry k).symm.trans (freeGeneral_some hk).2)⟩
  have hreport : ctlReport u none tag 0x1B .ok 0 0 0 0 = ctlReport s none tag 0x1B .ok 0 0 0 0 :=
    ctlReport_congr (s := s) (t := u) htime (fun _ hb => absurd hb.symm (Option.some_ne_none _)) ..
  have hqueue : u.fillQueue = s.fillQueue := by rw [hstate]
  obtain htakes | hleaves := settle_nop (s := u) (tag := tag) (by rw [hstate]) (by rw [hstate]) (by rw [hstate]) hk
  · refine ⟨_, hexec.trans (congrArg _ htakes), .inl ⟨rfl, (State.withReport_entry_same ..).trans (by rw [hreport]), ?_⟩⟩
    rw [State.withReport_fillQueue, ← hqueue]
  · exact ⟨_, hexec.trans (congrArg _ hleaves), .inr ⟨congrArg State.interp hstate, hfreed.2, hqueue⟩⟩

/-- The event of the one armed trigger takes the one FREE general entry, and the held NOP stays in hand. -/
theorem event_nop (hclaim : s.claim = none) (hdev : s.dev = .online) (hi : s.interp = .holding (nopRecord tag)) {a : Axis} {e : Fin 24}
    {m : Fin 4} (hfree : s.FreeGeneral e) (honly : ∀ k, s.FreeGeneral k → k = e) (harmed : (s.axis a).arm.armed = true)
    (hsource : (s.axis a).arm.source = .trg m) (hindex : (s.axis a).cfg.indexSrc = .own) (hhome : (s.axis a).cfg.homeSrc = .own)
    (hothers : ∀ b, b ≠ a → (s.axis b).arm.armed = false) (hwaits : ∀ b, (s.axis b).st ≠ .waitEvent) :
    ∃ t r, exec (.event (.trg m)) s = .next t ∧ t.interp = .holding (nopRecord tag) ∧ t.entry e = .filled r ∧ r.kind = .capture ∧
      r.tag = (s.axis a).arm.tag ∧ t.fillQueue = s.fillQueue ++ [e] := by
  have hfed : fedSources (.trg m) a (s.axis a).cfg = [.trg m] := fedSources_trigger hindex hhome
  have harmedFor : ∀ y : AxisBlock, y.cfg = (s.axis a).cfg → y.arm = (s.axis a).arm → y.armedFor (.trg m) a = true :=
    fun y hcfg harm => by
      rw [AxisBlock.armedFor, hcfg, harm, hfed]
      simp [CaptureArm.armedOn, harmed, hsource]
  have htakers : (allAxes.flatMap fun b => waitTaker (.trg m) (setLevel (eventLine (.trg m)) (eventLevel s (.trg m)) s) b ++
      if (s.axis b).armedFor (.trg m) b then [.capture b] else []) = [.capture a] := by
    refine (flatMap_of_unique (by decide) (a := a) (by fin_cases a <;> decide) fun b hb => ?_).trans ?_
    · rw [waitTaker_of_ne (s := setLevel (eventLine (.trg m)) (eventLevel s (.trg m)) s) (hwaits b), AxisBlock.armedFor_of_disarmed (hothers b hb)]
      rfl
    · rw [waitTaker_of_ne (s := setLevel (eventLine (.trg m)) (eventLevel s (.trg m)) s) (hwaits a), if_pos (harmedFor _ rfl rfl)]
      rfl
  have hact := eventAct_of_nop (s := setLevel (eventLine (.trg m)) (eventLevel s (.trg m)) s) hi (.trg m)
  have haxis := State.reached_axis (.trg m) (setLevel (eventLine (.trg m)) (eventLevel s (.trg m)) s) a
  have hstate := State.reached_eq (.trg m) (setLevel (eventLine (.trg m)) (eventLevel s (.trg m)) s)
  have hexec : exec (.event (.trg m)) s = .next (settle (eventAct (.trg m) (setLevel (eventLine (.trg m)) (eventLevel s (.trg m)) s))) :=
    congrArg (fun u => Host.Outcome.next (settle u)) (if_pos rfl)
  have hact' := hact.trans (congrArg (fun l => acceptAtRelease none (inSomeOrder l (runTaker (.trg m))
    ((setLevel (eventLine (.trg m)) (eventLevel s (.trg m)) s).reached (.trg m)))) htakers)
  rw [inSomeOrder_one] at hact'
  generalize (setLevel (eventLine (.trg m)) (eventLevel s (.trg m)) s).reached (.trg m) = u at haxis hstate hact'
  have haxis' : u.axis a = { s.axis a with latches := ((s.axis a).reached (.trg m) a s.time).latches } :=
    haxis.trans (AxisBlock.takes_keeps ..)
  have hrun : runTaker (.trg m) (.capture a) { u with freeCount := u.freeCount + 1 }
      = captureEvent a { u with freeCount := u.freeCount + 1 } := if_pos (harmedFor (u.axis a) (by rw [haxis']) (by rw [haxis']))
  rw [hrun] at hact'
  generalize hv : ({ u with freeCount := u.freeCount + 1 } : State) = v at hact'
  have hvarm : (v.axis a).arm = (s.axis a).arm := by
    rw [← hv]
    change (u.axis a).arm = _
    rw [haxis']
  have hvdev : v.dev = .online := by rw [← hv, hstate]; exact hdev
  have hvinterp : v.interp = .holding (nopRecord tag) := by rw [← hv, hstate]; exact hi
  have hvclaim : v.claim = none := by rw [← hv, hstate]; exact hclaim
  have hventry : ∀ k, v.entry k = s.entry k := fun k => by rw [← hv, hstate]; rfl
  have hvqueue : v.fillQueue = s.fillQueue := by rw [← hv, hstate]; rfl
  obtain ⟨k, hk⟩ := freeGeneral_of (s := v) ⟨e, hfree.1, (hventry e).trans hfree.2⟩
  obtain rfl : k = e := honly k ⟨(freeGeneral_some hk).1, (hventry k).symm.trans (freeGeneral_some hk).2⟩
  have hdone := captureEvent_captures (by rw [hvdev]; decide) hk a
  have hnoFree : generalChoice (captureEvent a v) = .cannot := generalChoice_cannot fun j hj => by
    have hentry := hj.2
    rw [hdone, State.withReport_entry] at hentry
    split at hentry
    next => exact Entry.noConfusion hentry
    next hne => exact hne (honly j ⟨hj.1, (hventry j).symm.trans hentry⟩)
  have hcdev : (captureEvent a v).dev = .online := by rw [hdone]; exact hvdev
  have hcinterp : (captureEvent a v).interp = .holding (nopRecord tag) := by rw [hdone]; exact hvinterp
  have hcclaim : (captureEvent a v).claim = none := by rw [hdone]; exact hvclaim
  rw [acceptAtRelease_of_unclaimed hcclaim] at hact'
  rw [hact', settle_holds hcdev hcinterp hcclaim hnoFree, hdone] at hexec
  refine ⟨_, _, hexec, hvinterp, State.withReport_entry_same .., rfl, congrArg CaptureArm.tag hvarm, ?_⟩
  rw [State.withReport_fillQueue, State.modAxis_fillQueue, hvqueue]

/-- With nothing due a held NOP is accepted as soon as a general entry is FREE. -/
theorem step_nop (hdev : s.dev = .online) (hi : s.interp = .holding (nopRecord tag)) (hpending : s.pending = [])
    (hdue : dueEvents s = []) (hfree : ∃ e, s.FreeGeneral e) : ∃ e, s.FreeGeneral e ∧
      step s = .next (({ s with interp := .waiting } : State).withReport e (ctlReport s none tag 0x1B .ok 0 0 0 0)) := by
  obtain ⟨e, he⟩ := freeGeneral_of hfree
  refine ⟨e, freeGeneral_some he, ?_⟩
  have hchoice : entryChoice (nopRecord tag).body s = .takes e := generalChoice_of he
  have hcan : s.heldCan = true := by
    simp only [State.heldCan, hi, hchoice]
    rfl
  have hlook : lookNow s = offIfAtRest (judgeRecord (nopRecord tag) s) := by simp only [lookNow, hi]
  have hdev' : (judgeRecord (nopRecord tag) s).dev = .online := by rw [judgeRecord_nop hdev he]; exact hdev
  have hstep : step s = .next (idle s) := by rw [step, hpending]
  rw [hstep, idle_of_held hdue hcan, hlook, offIfAtRest_of_ne (by rw [hdev']; decide) (by rw [hdev']; decide), judgeRecord_nop hdev he]

end

/-! ### A held CLEAR_GROUP -/

/-- A release while a record is held gives it the entry, or leaves the entry FREE (log entry 7). -/
theorem release_of_held {s : State} {c : CtlRecord} (hi : s.interp = .holding c) (hclaim : s.claim = none) (e : Fin 24) :
    release e s = { s.setEntry e (.reserved .control) with claim := some e, freeCount := s.freeCount + 1 } ∨
      release e s = { s.setEntry e .free with freeCount := s.freeCount + 1 } := by
  rw [release, hi, hclaim]
  by_cases hfree : Config.freeClaim s.freeCount = true
  · exact .inl (by simp [Interp.wantsGeneral, hfree])
  · exact .inr (by simp [Interp.wantsGeneral, hfree])

/-- A held CLEAR_GROUP that has taken the entry just released acts on it there: a group that does not gather is freed. -/
theorem acceptAtRelease_clearGroup {s : State} {tag : Word} {g : GroupIx} {e : Fin 24} (hdev : s.dev = .online)
    (hi : s.interp = .holding { tag := tag, body := .clearGroup g }) (hclaim : s.claim = some e) (hst : (s.group g).st ≠ .gathering)
    (a : Axis) : ∃ t, acceptAtRelease (some a) s = t ∧ (∀ b, t.axis b = s.axis b) ∧ t.dev = .online ∧ t.interp = .waiting ∧
      t.group g = Group.reset ∧ t.fillQueue = s.fillQueue ++ [e] := by
  have haccepts : acceptAtRelease (some a) s
      = acceptClearGroup { tag := tag, body := .clearGroup g } e g { s with interp := .waiting, claim := none } := by
    unfold acceptAtRelease
    rw [hi, hclaim]
    rfl
  have hgroup : (({ s with interp := .waiting, claim := none } : State).group g).st ≠ .gathering := hst
  rw [haccepts]
  simp only [acceptClearGroup, if_neg hgroup]
  rw [complete_eq _ e .ok 0 0 _ _ (by rw [State.modGroup_dev]; exact hdev ▸ DevState.noConfusion)]
  exact ⟨_, rfl, fun _ => rfl, hdev, rfl, (State.withReport_group ..).trans (State.modGroup_group_same ..), rfl⟩

/-- The end of a MOVE at rest while a record is in hand: the entry it leaves may be taken before the queue is considered. -/
theorem expiryWork_restEnds {s z : State} {a : Axis} {f : Segment} {m : Move} (hdev : s.dev ≠ .failed) (hst : (s.axis a).st = .run)
    (hactive : (s.axis a).active = some f) (hbody : f.record.body = .move m) (hexit : m.exit = .rest)
    (hremaining : (s.axis a).remaining = 0) (hjump : (s.axis a).rate ≤ (s.axis a).cfg.jumpLimit)
    (hin : (s.axis a).cfg.countsPerStep = 0 ∨ (s.axis a).acc.natAbs ≤ (s.axis a).cfg.followWindow)
    (hz : acceptAtRelease (some a) (retireActive a .ok none (fun _ => (BitVec.ofNat 32 m.steps, 0)) (s.expired a)) = z)
    (hself : z.axis a = { (s.axis a).expire with active := none, lastRetired := some f.record.id }) :
    expiryWork a (s.expired a) = considerQueue a (s.axis a).staging.length (z.modAxis a fun x => { x.slowed with st := .idle }) := by
  have hx := s.expired_axis a
  rw [expiryWork_passes (s := s.expired a) hdev (by rw [hx]; exact hst ▸ AxisState.noConfusion) (by rw [hx]; exact hin),
    stateWork_run (by rw [hx]; exact hst), runWork_move (by rw [hx]; exact hactive) hbody,
    if_pos (by rw [hx]; exact hremaining), endMove]
  simp only [hexit]
  rw [retireThen, hz, if_pos ((congrArg AxisBlock.st hself).trans (congrArg AxisBlock.st hx).symm), restExit_idles (by rw [hself]; exact hjump), hself]
  rfl

theorem considerQueue_dwell {y : State} {a : Axis} {g : GroupIx} {r : AxisRecord} {n : Nat} (hdev : y.dev = .online)
    (hst : (y.axis a).st = .idle) (hstaging : (y.axis a).staging = [r]) (hbody : r.body = .dwell n (some g)) :
    considerQueue a 1 y = judgeTagged a g r y :=
  considerQueue_tagged (s := y) 0 hdev hst hstaging (by rw [hbody]; rfl) (by rw [hbody]; rfl)

section
variable {s y : State} {a : Axis} {g : GroupIx} {r : AxisRecord} {n : Nat} (hdev : y.dev = .online) (hst : (y.axis a).st = .idle)
  (hstaging : (y.axis a).staging = [r]) (hdwell : r.body = .dwell n (some g))
include hdev hst hstaging hdwell

/-- The axis finds its group freed and halts. -/
theorem considerQueue_freed (hi : y.interp = .waiting) (hactive : (y.axis a).active = none) (hheld : (y.axis a).held = none)
    (hrequest : (y.axis a).stopReq = none) (hgroup : y.group g = Group.reset) : ∃ t, settle (considerQueue a 1 y) = t ∧
      t.interp = .waiting ∧ t.group g = Group.reset ∧ (t.axis a).st = .halted ∧ (t.axis a).cause = some .recordInvalid ∧
      t.fillQueue = y.fillQueue ++ [faultSlot a] := by
  rw [considerQueue_dwell hdev hst hstaging hdwell, judgeTagged_refuses (.inl (by rw [hgroup]; rfl)),
    haltAxis_of_not_waitSync (.inl (by rw [hst]; exact AxisState.noConfusion))]
  have hself := haltCore_axis_same a .recordInvalid r.id y
  obtain ⟨lr, hhalted⟩ := (y.axis a).haltedBy_eq .recordInvalid
  rw [hhalted] at hself
  have hreports := haltCore_reports_bare (a := a) (by rw [hdev]; decide) hactive hheld hrequest .recordInvalid r.id
  have hrest := haltCore_rest a .recordInvalid r.id y
  rw [settle_of_online (hrest.dev.trans hdev) (hrest.interp.trans hi)]
  refine ⟨_, rfl, hrest.interp.trans hi, ?_, by rw [hself], by rw [hself], hreports.queue⟩
  rw [State.group, haltCore_groups]
  exact hgroup

/-- The axis arrives at its group with the one FREE general entry, and the record stays in hand. -/
theorem considerQueue_arrives {tag : Word} {e : Fin 24} (hi : y.interp = .holding { tag := tag, body := .clearGroup g })
    (hclaim : y.claim = none) (hfree : y.FreeGeneral e) (honly : ∀ k, y.FreeGeneral k → k = e) (harmed : (y.group g).st = .armed)
    (hmember : setHas (y.group g).members a = true) (hopen : ¬ setInsert (y.group g).arrived a = (y.group g).members) :
    ∃ t, settle (considerQueue a 1 y) = t ∧ t.interp = .holding { tag := tag, body := .clearGroup g } ∧
      (t.group g).st = .gathering ∧ (t.axis a).st = .waitSync ∧
      (t.axis a).held = some { record := r, group := g, entry := e } ∧ t.fillQueue = y.fillQueue := by
  obtain ⟨k, hk⟩ := freeGeneral_of ⟨e, hfree⟩
  obtain rfl := honly k (freeGeneral_some hk)
  rw [considerQueue_dwell hdev hst hstaging hdwell, judgeTagged_arrives (.inl harmed) hmember hk, arrive_eq, State.setEntry_group,
    if_neg hopen]
  generalize ht : (y.setEntry k (.reserved (.heldSync a))).arrived a g r k = t
  have hstate : t = ((y.setEntry k (.reserved (.heldSync a))).modAxis a fun x => { x with
      staging := x.staging.tail, held := some { record := r, group := g, entry := k }, st := .waitSync }).modGroup g
        (Group.arrive a) := ht.symm
  have htentry : ∀ j, t.entry j = if j = k then .reserved (.heldSync a) else y.entry j := fun j => by
    rw [hstate, State.modGroup_entry, State.modAxis_entry, State.setEntry_entry]
  have hcannot : entryChoice (.clearGroup g) t = .cannot := generalChoice_cannot fun j hj => by
    have hentry := hj.2
    rw [htentry] at hentry
    split at hentry
    next => exact Entry.noConfusion hentry
    next hne => exact hne (honly j ⟨hj.1, hentry⟩)
  have htdev : t.dev = .online := by rw [hstate]; exact hdev
  have htinterp : t.interp = .holding { tag := tag, body := .clearGroup g } := by rw [hstate]; exact hi
  have htclaim : t.claim = none := by rw [hstate]; exact hclaim
  have htaxis : t.axis a = { y.axis a with
      staging := (y.axis a).staging.tail, held := some { record := r, group := g, entry := k }, st := .waitSync } := by
    rw [hstate, State.modGroup_axis, State.modAxis_axis_same, State.setEntry_axis]
  refine ⟨t, settle_holds htdev htinterp htclaim hcannot, htinterp, ?_, by rw [htaxis], by rw [htaxis], ?_⟩
  · rw [hstate, State.modGroup_group_same]
    rfl
  · rw [hstate, State.modGroup_fillQueue, State.modAxis_fillQueue, State.setEntry_fillQueue]

end

/-- An axis at the end of its MOVE at rest, before its queue is considered. -/
def AxisBlock.endsAtRest (f : Segment) (x : AxisBlock) : AxisBlock := { (x.expire.retires f).slowed with st := .idle }

/-- While a CLEAR_GROUP is held, the end of a MOVE leaves its entry to the record, which frees the group, or to the arrival. -/
theorem expiry_clearGroup {s : State} {tag : Word} {a : Axis} {g : GroupIx} {f : Segment} {m : Move} {r : AxisRecord} {n : Nat}
    (hclaim : s.claim = none) (hdev : s.dev = .online) (hi : s.interp = .holding { tag := tag, body := .clearGroup g })
    (hfull : ∀ e, ¬ s.FreeGeneral e) (hnone : ∀ g, (s.group g).st ≠ .gathering) (hst : (s.axis a).st = .run)
    (hactive : (s.axis a).active = some f) (hbody : f.record.body = .move m) (hexit : m.exit = .rest) (hflag : f.record.report = false)
    (hgeneral : f.entry.val < 16) (hremaining : (s.axis a).remaining = 0) (hjump : (s.axis a).rate ≤ (s.axis a).cfg.jumpLimit)
    (hheld : (s.axis a).held = none) (hrequest : (s.axis a).stopReq = none)
    (hin : (s.axis a).cfg.countsPerStep = 0 ∨ (s.axis a).acc.natAbs ≤ (s.axis a).cfg.followWindow)
    (hstaging : (s.axis a).staging = [r]) (hdwell : r.body = .dwell n (some g)) (harmed : (s.group g).st = .armed)
    (hmember : setHas (s.group g).members a = true) (harrived : (s.group g).arrived = 0)
    (hmore : ∃ b, b ≠ a ∧ setHas (s.group g).members b = true) :
    ∃ t, exec (.updatePeriodExpiry a) s = .next t ∧
      ((t.interp = .waiting ∧ t.group g = Group.reset ∧ (t.axis a).st = .halted ∧ (t.axis a).cause = some .recordInvalid ∧
          t.fillQueue = s.fillQueue ++ [f.entry, faultSlot a]) ∨
        (t.interp = .holding { tag := tag, body := .clearGroup g } ∧ (t.group g).st = .gathering ∧
          (t.axis a).st = .waitSync ∧ (t.axis a).held = some { record := r, group := g, entry := f.entry } ∧
          t.fillQueue = s.fillQueue)) := by
  have hfailed : s.dev ≠ .failed := by rw [hdev]; decide
  have hexec := exec_expiry_of_none (a := a) (by rw [hst]; decide) hnone
  have hretires : retireActive a .ok none (fun _ => (BitVec.ofNat 32 m.steps, 0)) (s.expired a)
      = (release f.entry (s.expired a)).modAxis a (AxisBlock.retires f) := by
    have hactive' : ((s.expired a).axis a).active = some f := by rw [State.expired_axis]; exact hactive
    simp only [retireActive, hactive', reportSegment, hflag]
    rfl
  have hone : (s.axis a).staging.length = 1 := congrArg List.length hstaging
  obtain hclaims | hleaves := release_of_held (s := s.expired a) hi hclaim f.entry
  · -- the record takes the entry and frees the group
    rw [hclaims] at hretires
    generalize hw : ({ (s.expired a).setEntry f.entry (.reserved .control) with
      claim := some f.entry, freeCount := (s.expired a).freeCount + 1 } : State) = w at hretires
    have hwaxis : w.axis a = (s.axis a).expire := by rw [← hw]; exact s.expired_axis a
    have hwdev : w.dev = .online := by rw [← hw]; exact hdev
    have hwinterp : w.interp = .holding { tag := tag, body := .clearGroup g } := by rw [← hw]; exact hi
    have hwclaim : w.claim = some f.entry := by rw [← hw]
    have hwgroup : w.group g = s.group g := by rw [← hw]; rfl
    have hwqueue : w.fillQueue = s.fillQueue := by rw [← hw]; rfl
    obtain ⟨z, hz, hzaxis, hzdev, hzinterp, hzgroup, hzqueue⟩ := acceptAtRelease_clearGroup (s := w.modAxis a (AxisBlock.retires f))
      hwdev hwinterp hwclaim (by rw [State.modAxis_group, hwgroup]; exact hnone g) a
    have hzself : z.axis a = (s.axis a).expire.retires f := by rw [hzaxis, State.modAxis_axis_same, hwaxis]
    have hwork := expiryWork_restEnds hfailed hst hactive hbody hexit hremaining hjump hin (hretires ▸ hz) hzself
    rw [hone] at hwork
    generalize hy : z.modAxis a (fun x => { x.slowed with st := .idle }) = y at hwork
    have hyaxis : y.axis a = (s.axis a).endsAtRest f := by
      rw [← hy, State.modAxis_axis_same, hzself]
      rfl
    have hydev : y.dev = .online := by rw [← hy]; exact hzdev
    have hyinterp : y.interp = .waiting := by rw [← hy]; exact hzinterp
    have hygroup : y.group g = Group.reset := by rw [← hy]; exact hzgroup
    have hyqueue : y.fillQueue = s.fillQueue ++ [f.entry] := by rw [← hy, ← hwqueue]; exact hzqueue
    obtain ⟨t, hsettle, hinterp, hgroup, hhalted, hcause, hqueue⟩ := considerQueue_freed (a := a) hydev (by rw [hyaxis]; rfl)
      (by rw [hyaxis]; exact hstaging) hdwell hyinterp (by rw [hyaxis]; rfl) (by rw [hyaxis]; exact hheld)
      (by rw [hyaxis]; exact hrequest) hygroup
    rw [hwork, hsettle] at hexec
    refine ⟨t, hexec, .inl ⟨hinterp, hgroup, hhalted, hcause, ?_⟩⟩
    rw [hqueue, hyqueue, List.append_assoc]
    rfl
  · -- the entry stays FREE and the axis arrives with it
    rw [hleaves] at hretires
    generalize hw : ({ (s.expired a).setEntry f.entry .free with freeCount := (s.expired a).freeCount + 1 } : State) = w at hretires
    have hwaxis : w.axis a = (s.axis a).expire := by rw [← hw]; exact s.expired_axis a
    have hwdev : w.dev = .online := by rw [← hw]; exact hdev
    have hwinterp : w.interp = .holding { tag := tag, body := .clearGroup g } := by rw [← hw]; exact hi
    have hwclaim : w.claim = none := by rw [← hw]; exact hclaim
    have hwgroup : w.group g = s.group g := by rw [← hw]; rfl
    have hwqueue : w.fillQueue = s.fillQueue := by rw [← hw]; rfl
    have hwentry : ∀ k, w.entry k = if k = f.entry then .free else s.entry k := fun k => by
      rw [← hw]
      exact State.setEntry_entry ..
    have hvself : (w.modAxis a (AxisBlock.retires f)).axis a = (s.axis a).expire.retires f := by
      rw [State.modAxis_axis_same, hwaxis]
    have hwork := expiryWork_restEnds hfailed hst hactive hbody hexit hremaining hjump hin
      (hretires ▸ acceptAtRelease_of_unclaimed (s := w.modAxis a (AxisBlock.retires f)) hwclaim (some a)) hvself
    rw [hone, State.modAxis_modAxis] at hwork
    generalize hy : (w.modAxis a fun x => { (x.retires f).slowed with st := .idle }) = y at hwork
    have hyaxis : y.axis a = (s.axis a).endsAtRest f := by
      rw [← hy, State.modAxis_axis_same, hwaxis]
      rfl
    have hydev : y.dev = .online := by rw [← hy]; exact hwdev
    have hyinterp : y.interp = .holding { tag := tag, body := .clearGroup g } := by rw [← hy]; exact hwinterp
    have hyclaim : y.claim = none := by rw [← hy]; exact hwclaim
    have hygroup : y.group g = s.group g := by rw [← hy]; exact hwgroup
    have hyqueue : y.fillQueue = s.fillQueue := by rw [← hy]; exact hwqueue
    have hyentry : ∀ k, y.entry k = if k = f.entry then .free else s.entry k := fun k => by rw [← hy]; exact hwentry k
    have honly : ∀ k, y.FreeGeneral k → k = f.entry := fun k hk => Decidable.by_contra fun hne =>
      hfull k ⟨hk.1, (if_neg hne).symm.trans ((hyentry k).symm.trans hk.2)⟩
    have hopen : ¬ setInsert (y.group g).arrived a = (y.group g).members := fun hcomplete => by
      obtain ⟨b, hne, hb⟩ := hmore
      rw [hygroup, harrived] at hcomplete
      rw [← hcomplete, setHas_setInsert, setHas_zero] at hb
      simp [hne] at hb
    obtain ⟨t, hsettle, hinterp, hgroup, hwaits, hholds, hqueue⟩ := considerQueue_arrives (a := a) hydev (by rw [hyaxis]; rfl)
      (by rw [hyaxis]; exact hstaging) hdwell hyinterp hyclaim ⟨hgeneral, (hyentry f.entry).trans (if_pos rfl)⟩ honly
      (by rw [hygroup]; exact harmed) (by rw [hygroup]; exact hmember) hopen
    rw [hwork, hsettle] at hexec
    exact ⟨t, hexec, .inr ⟨hinterp, hgroup, hwaits, hholds, hqueue.trans hyqueue⟩⟩

/-- Settles O60. -/
theorem recordIsHeldForWantOfAnEntry : Obligations.RecordIsHeldForWantOfAnEntry := by
  intro s a g tag hclaim nop
  refine ⟨fun h hfull => ?_, fun hdev hi => ⟨fun e ad v hfull he hport => reportWrite_nop hclaim hdev hi hfull he hport,
    fun e m hfree honly harmed hsource hindex hhome hothers hwaits =>
      event_nop hclaim hdev hi hfree honly harmed hsource hindex hhome hothers hwaits,
    fun hpending hdue hfree => step_nop hdev hi hpending hdue hfree⟩,
    fun f m r n hdev hi hfull hnone hst hactive hbody hexit hflag hgeneral hremaining hjump hheld hrequest hin hstaging hdwell harmed
      hmember harrived hmore => expiry_clearGroup hclaim hdev hi hfull hnone hst hactive hbody hexit hflag hgeneral hremaining hjump
        hheld hrequest hin hstaging hdwell harmed hmember harrived hmore⟩
  have hcannot := generalChoice_cannot hfull
  refine ⟨?_, ?_, ?_, ?_, ?_, fun hslot hrequest => ?_⟩
  · exact congrArg _ (deliverCommand_holds (b := .nop) h hclaim rfl hcannot)
  · exact congrArg _ (deliverCommand_holds (b := .readStatus a) h hclaim rfl hcannot)
  · exact congrArg _ (deliverCommand_holds (b := .enableAxis a) h hclaim rfl hcannot)
  · exact congrArg _ (deliverCommand_holds (b := .disableAxis a) h hclaim rfl hcannot)
  · exact congrArg _ (deliverCommand_holds (b := .clearGroup g) h hclaim rfl hcannot)
  · refine congrArg _ (deliverCommand_holds (b := .abortAxis a) h hclaim rfl ?_)
    have hnotFree : ¬ (s.entry (stopSlot a)).isFree = true := mt (Entry.isFree_iff _).mp hslot
    have hchoice : requestChoice a s = stopChoice a s := by rw [requestChoice, hrequest]
    exact hchoice.trans ((if_neg hnotFree).trans hcannot)

end Sys2Proof.Machine
end

section
/-! PROOFS. O11 depends on the free values: under one choice of them (log entries 3 and 7) a step breaks the completion buffer's
invariant. A record in hand that is accepted in the middle of a sample enables an axis that went from HALTED to OFF in a quiesce with
its FAULT report unwritten, and a quadrature error later in the sample halts the axis again, which fills its fault slot twice. -/

namespace Sys2Proof.Machine
open Sys2Proof

/-! ### The free values -/

theorem arrange_of_zero {α : Type} (horder : ∀ k, Config.freeOrder k = 0) (seed : Nat) :
    ∀ (n : Nat) (l : List α), arrange seed n l = l
  | 0, _ => rfl
  | _ + 1, [] => rfl
  | _ + 1, [_] => rfl
  | n + 1, x :: y :: l => by
    simp only [arrange, horder, Nat.zero_mod]
    exact congrArg (x :: ·) (arrange_of_zero horder seed n (y :: l))

theorem inSomeOrder_of_zero {α : Type} (horder : ∀ k, Config.freeOrder k = 0) (l : List α) (f : α → State → State) (s : State) :
    inSomeOrder l f s = l.foldl (fun t x => f x t) { s with freeCount := s.freeCount + l.length } := by
  rw [inSomeOrder, arrange_of_zero horder]

theorem release_of_claim {e : Fin 24} {s : State} (hi : s.interp.wantsGeneral = true) (hnone : s.claim.isNone = true)
    (hclaim : Config.freeClaim s.freeCount = true) :
    release e s = { s.setEntry e (.reserved .control) with claim := some e, freeCount := s.freeCount + 1 } := by
  rw [release, if_pos hi, hnone, hclaim]; rfl

theorem deliverEdge_of_not_follow (hfollow : ∀ k, Config.freeFollow k = false) (d : Delivery) (s : State) :
    deliverEdge d s = { runDelivery d s with freeCount := (runDelivery d s).freeCount + 1 } := by
  simp [deliverEdge, hfollow]

/-! ### The device -/

/-- The WAIT of axis 0 for its own index line, its report flag clear. -/
def indexWait : Wait := { src := .index, policy := .fresh, timeout := none, ref := none }

/-- Axis 0 in WAIT_EVENT with its entry 3. -/
def waitingAxis : AxisBlock :=
  { AxisBlock.reset.enabled with
    st := .waitEvent
    active := some (newSegment { tag := 0, report := false, body := .wait indexWait } 3) }

/-- A device in QUIESCING whose axis 0 is in WAIT_EVENT, whose axis 1, with feedback, went to OFF with its FAULT report unwritten, and
which holds an ENABLE_AXIS of axis 1 for want of a general entry. -/
def heldEnable : State :=
  { State.reset with
    dev := .quiescing, interp := .holding { tag := 0, body := .enableAxis 1 }
    entries := Vector.ofFn fun e => if e.val < 16 then .reserved (if e = 3 then .axisRecord 0 else .control)
      else if e = faultSlot 1 then .filled (ctlReport State.reset none 0 0 .ok 0 0 0 0) else .free
    fillQueue := [faultSlot 1]
    axes := #v[waitingAxis, { AxisBlock.reset with cfg := { AxisConfig.reset with countsPerStep := 1 } }, AxisBlock.reset, AxisBlock.reset]
    lines := Vector.replicate 28 { level := false, run := 0, sampled := true }
    inputs := { InputsConfig.reset with fastDepth := 1 } }

/-- A sample in which the index line of axis 0 and both quadrature lines of axis 1 rise. -/
def risingLevels : BitVec 28 := 0b11000100

theorem heldEnable_bufferKept : heldEnable.BufferKept := by
  have active : ∀ a, (heldEnable.axis a).active.all fun g => heldEnable.entry g.entry = .reserved (.axisRecord a) := by decide
  have held : ∀ a, (heldEnable.axis a).held = none := by decide
  have request : ∀ a, (heldEnable.axis a).stopReq = none := by decide
  have filled : ∀ e, e ∈ heldEnable.fillQueue ↔ (match heldEnable.entry e with
      | .filled _ => true
      | _ => false) = true := by decide
  have faultSlots : ∀ a, heldEnable.entry (faultSlot a) = .free ∨ (heldEnable.axis a).st = .halted ∨
      (heldEnable.dev = .quiescing ∧ (heldEnable.axis a).st = .off ∧ ∀ b, (heldEnable.axis b).st.moving = false) := by decide
  refine ⟨by decide, fun e => ?_, fun _ a g h => ?_, fun _ a x h => ?_, fun _ a q h => ?_, fun _ e ad v h => ?_,
    fun _ => faultSlots, fun a h => absurd (held a) h, fun _ _ h => ?_, fun h => ?_, rfl⟩
  · rw [filled e]; cases heldEnable.entry e <;> simp
  · simpa [h] using active a
  · simp [held a] at h
  · simp [request a] at h
  · cases h
  · cases h
  · cases h

/-- The same device with the sample in its queue. -/
def heldEnableSampled : State := { heldEnable with pending := [.qualifierSample .fast risingLevels] }

theorem heldEnableSampled_bufferKept : heldEnableSampled.BufferKept :=
  have k := heldEnable_bufferKept
  ⟨k.once, k.filled, k.active, k.held, k.request, k.writing, k.faultSlot, k.waitSync, k.setup, k.failed, k.claim⟩

theorem heldEnable_deliveries : deliveries .fast risingLevels heldEnable = [.event (.encI 0) true, .quadError 1] := by decide

/-! ### The event of the sample -/

/-- The device once its lines have taken the sample, the two edges to be delivered. -/
def sampledEnable : State :=
  { firstQuad .fast heldEnable (sampleLines .fast risingLevels (notePins .fast risingLevels heldEnable)) with freeCount := 2 }

/-- The device once the latches have taken the event of axis 0's index line. -/
def latchedEnable : State :=
  let s := setLevel (.encI 0) true sampledEnable
  let t := (allAxes.filter fun a => ! s.mayChangeLatches a).foldl (fun t a => reachLatches (.encI 0) a t) s
  { t with freeCount := t.freeCount + 2 }

/-- The device once the WAIT has retired: the ENABLE_AXIS has taken its entry. -/
def claimedEnable : State :=
  let s := latchedEnable.modAxis 0 fun x => (x.setLatch .index Latch.clear).applyRef indexWait
  (({ s.setEntry 3 (.reserved .control) with claim := some 3, freeCount := s.freeCount + 1 }).modAxis 0
    fun x => { x with active := none, lastRetired := some { tag := 0, kind := 0x03 } }).modAxis 0 fun x => { x with st := .idle }

theorem latchedEnable_completeWait (hclaim : ∀ k, Config.freeClaim k = true) :
    completeWait 0 indexWait latchedEnable = claimedEnable := by
  have hrelease := release_of_claim (e := 3)
    (s := latchedEnable.modAxis 0 fun x => (x.setLatch .index Latch.clear).applyRef indexWait) rfl rfl (hclaim _)
  have hretire : completeWait 0 indexWait latchedEnable =
      ((release 3 (latchedEnable.modAxis 0 fun x => (x.setLatch .index Latch.clear).applyRef indexWait)).modAxis 0
        fun x => { x with active := none, lastRetired := some { tag := 0, kind := 0x03 } }).modAxis 0
          fun x => { x with st := .idle } := rfl
  rw [hretire, hrelease]
  rfl

/-- The device once the ENABLE_AXIS has been accepted inside the event. -/
def enabledMidSample : State := runTaker (.encI 0) (.latches 1) (acceptInEvent claimedEnable)

theorem sampledEnable_event (horder : ∀ k, Config.freeOrder k = 0) (hclaim : ∀ k, Config.freeClaim k = true) :
    runDelivery (.event (.encI 0) true) sampledEnable = enabledMidSample := by
  have htakers : allAxes.flatMap (axisTakers (.encI 0) (setLevel (.encI 0) true sampledEnable)) =
      [.wait 0 indexWait, .latches 1] := by decide
  have hwait : runTaker (.encI 0) (.wait 0 indexWait) latchedEnable = acceptInEvent claimedEnable := by
    rw [← latchedEnable_completeWait hclaim]; rfl
  have hevent : runDelivery (.event (.encI 0) true) sampledEnable =
      eventAct (.encI 0) (setLevel (.encI 0) true sampledEnable) := rfl
  have hunclaimed : enabledMidSample.interp = .waiting := by decide
  rw [hevent, eventAct, htakers, inSomeOrder_of_zero horder]
  calc acceptAtRelease none (runTaker (.encI 0) (.latches 1) (runTaker (.encI 0) (.wait 0 indexWait) latchedEnable))
      = acceptAtRelease none enabledMidSample := by rw [hwait, enabledMidSample]
    _ = enabledMidSample := acceptAtRelease_of_waiting none hunclaimed

/-! ### The quadrature error of the sample -/

/-- The device once both edges of the sample are delivered. -/
def haltedTwice : State := runDelivery (.quadError 1) { enabledMidSample with freeCount := enabledMidSample.freeCount + 1 }

theorem haltedTwice_fillQueue : haltedTwice.fillQueue = [faultSlot 1, 3, faultSlot 1] := by decide

/-- The free values with which the sample delivers the event first, the held record takes the entry the WAIT leaves, and what follows
from an edge waits for the end of the sample refute O11; the constants have no body, so it has no proof (it is not refuted either: the
hypotheses are a choice of the constants, not facts about them). -/
theorem fillQueueHoldsTheFilledEntries_false_of_claim (horder : ∀ k, Config.freeOrder k = 0)
    (hclaim : ∀ k, Config.freeClaim k = true) (hfollow : ∀ k, Config.freeFollow k = false) :
    ¬ Obligations.FillQueueHoldsTheFilledEntries := by
  intro h
  have hstep : step heldEnableSampled = .next (settle
      { haltedTwice with freeCount := haltedTwice.freeCount + 1 }) := by
    change Host.Outcome.next (sampleNow .fast risingLevels heldEnable) = _
    rw [sampleNow, heldEnable_deliveries, inSomeOrder_of_zero horder]
    change Host.Outcome.next (settle (deliverEdge (.quadError 1) (deliverEdge (.event (.encI 0) true) sampledEnable))) = _
    rw [deliverEdge_of_not_follow hfollow, deliverEdge_of_not_follow hfollow, sampledEnable_event horder hclaim]
    rfl
  have hwaiting : ({ haltedTwice with freeCount := haltedTwice.freeCount + 1 } : State).interp = .waiting := by decide
  have honce := (h _ _ heldEnableSampled_bufferKept hstep).once
  rw [settle_of_waiting hwaiting, offIfAtRest_fillQueue] at honce
  exact absurd (haltedTwice_fillQueue ▸ honce) (by decide)

end Sys2Proof.Machine
end
